-- ==== Sys2Proof/Word.lean ====
section
/-! DEFINITION. The word types of the UCB: every register is a byte, a command word has 64 bits, a bus address at most 32. -/

namespace Sys2Proof

/-- The width of every unit register, of PR and of SEQSTAT (10_state.md R18, R25, R33). -/
abbrev Byte := BitVec 8

/-- A word written to the command port (30_encoding.md R57). -/
abbrev CmdWord := BitVec 64

/-- A register-bus address; ADDR_W is at most 32 (00_scope.md R6), so 32 bits hold every address. -/
abbrev BusAddr := BitVec 32

end Sys2Proof
end

