-- ==== Sys2Proof/Syntax.lean ====
section
/-! DEFINITION. The enumerations of 00_scope.md R14, the sixteen phases, what arrives at each interface, and the instructions: one constructor per row of spec/opcode_table.json. -/

namespace Sys2Proof

/-- The USART mode (00_scope.md R14). -/
inductive Mode where
  | na  -- normal asynchronous
  | da  -- double-speed asynchronous
  | ms  -- master synchronous
  | ss  -- slave synchronous
  deriving DecidableEq, Repr, Inhabited

/-- The parity setting (00_scope.md R14). -/
inductive Parity where
  | none
  | even
  | odd
  deriving DecidableEq, Repr, Inhabited

/-- The number of stop bits (00_scope.md R14). -/
inductive Stop where
  | one
  | two
  deriving DecidableEq, Repr, Inhabited

/-- The number of data bits (00_scope.md R14). -/
inductive Size where
  | five
  | six
  | seven
  | eight
  | nine
  deriving DecidableEq, Repr, Inhabited

/-- The direction of a GPIO pin (00_scope.md R14). -/
inductive Dir where
  | input
  | output
  deriving DecidableEq, Repr, Inhabited

/-- The six registers of a unit (10_state.md R18). -/
inductive Reg where
  | status
  | ctrla
  | ctrlb
  | divl
  | divh
  | data
  deriving DecidableEq, Repr

/-- The sixteen phases of the sequencer (30_encoding.md R62). -/
inductive Phase where
  | idle
  | resolve
  | validate
  | poll
  | guardAcq
  | pwrClr
  | modeSel
  | dsWrite
  | xckDir
  | divHi
  | divLo
  | frmSizeLo
  | frmSizeHi
  | frmParity
  | frmStop
  | guardRel
  deriving DecidableEq, Repr

/-- What arrives at an interface; the format is told from the interface, not from the bits (30_encoding.md R56). -/
inductive PortWord where
  /-- CMD64: a word written to the command port (R57). -/
  | cmd64 (w : CmdWord)
  /-- CMDRD: a read of the command port, which carries no bits (R56). -/
  | cmdRd
  /-- BUSTX: the triple (WE, ADDR, DATA) (R61). -/
  | bustx (we : Bool) (addr : BusAddr) (data : Byte)
  /-- PHASE4: the value of the phase register (R62). -/
  | phase4 (code : BitVec 4)
  deriving DecidableEq, Repr

/-- The instructions, one constructor per row of spec/opcode_table.json. -/
inductive Instr where
  /-- INIT (R57, R72): SIZE, PAR and BAUD are the raw fields, which R59 checks when the word is executed. -/
  | init (unit : BitVec 4) (mode : Mode) (stop : Stop) (size : BitVec 4) (par : BitVec 2) (baud : BitVec 32)
  /-- STAT (R76). -/
  | stat
  /-- BUS.RD (R77). -/
  | busRd (addr : BusAddr)
  /-- BUS.WR (R78). -/
  | busWr (addr : BusAddr) (data : Byte)
  /-- PHASE.IDLE (R82). -/
  | phaseIdle
  /-- PHASE.RESOLVE (R80). -/
  | phaseResolve
  /-- PHASE.VALIDATE (R84). -/
  | phaseValidate
  /-- PHASE.POLL (R86). -/
  | phasePoll
  /-- PHASE.GUARD_ACQ (R88). -/
  | phaseGuardAcq
  /-- PHASE.PWR_CLR (R89). -/
  | phasePwrClr
  /-- PHASE.MODE_SEL (R96). -/
  | phaseModeSel
  /-- PHASE.DS_WRITE (R97). -/
  | phaseDsWrite
  /-- PHASE.XCK_DIR (R98). -/
  | phaseXckDir
  /-- PHASE.DIV_HI (R99). -/
  | phaseDivHi
  /-- PHASE.DIV_LO (R100). -/
  | phaseDivLo
  /-- PHASE.FRM_SIZE_LO (R104). -/
  | phaseFrmSizeLo
  /-- PHASE.FRM_SIZE_HI (R105). -/
  | phaseFrmSizeHi
  /-- PHASE.FRM_PARITY (R106). -/
  | phaseFrmParity
  /-- PHASE.FRM_STOP (R107). -/
  | phaseFrmStop
  /-- PHASE.GUARD_REL (R90). -/
  | phaseGuardRel
  deriving DecidableEq, Repr

end Sys2Proof
end

