-- ==== Sys2Proof/Config.lean ====
section
/-! DEFINITION. What an implementation fixes: the parameters of 00_scope.md R6, the informative reference instantiation of 93_implementation_defined.md section 3, and the free values (`draw()` of 00_scope.md R13), which have no body. -/

namespace Sys2Proof

/-- MAX_POLL: the quiescence poll limit (00_scope.md R6). -/
inductive MaxPoll where
  | unbounded
  | bounded (n : Nat)
  deriving DecidableEq, Repr

/-- One record of the Unit Resolver table (10_state.md R16). -/
structure UnitDesc where
  base      : Nat
  offStatus : Nat
  offCtrla  : Nat
  offCtrlb  : Nat
  offDivl   : Nat
  offDivh   : Nat
  offData   : Nat
  posTC     : Fin 8
  posRIP    : Fin 8
  posDS     : Fin 8
  posMODE   : Fin 7          -- the least significant of two bits
  posPAR    : Fin 7          -- the least significant of two bits
  posSZLO   : Fin 7          -- the least significant of two bits
  posSTOP   : Fin 8
  posPOL    : Fin 8
  posSZHI   : Fin 8
  posIEN    : List (Fin 8)
  prId      : Nat
  prBit     : Fin 8
  xckPin    : Nat
  txdPin    : Nat
  rxdPin    : Nat
  deriving DecidableEq, Repr

/-- A parameter set (00_scope.md R6). N_UNITS is the length of the table, so a unit id is in range exactly when
the table has a record for it. -/
structure Params where
  table   : List UnitDesc
  fOsc    : Nat
  maxPoll : MaxPoll
  addrW   : Nat
  deriving DecidableEq, Repr

/-- N_UNITS (00_scope.md R6). -/
def Params.nUnits (p : Params) : Nat := p.table.length

namespace Config

/-- A unit of the reference instantiation: its offsets and field positions are the same for every unit
(93_implementation_defined.md section 3). -/
def referenceUnit (base prId : Nat) (prBit : Fin 8) (xck txd rxd : Nat) : UnitDesc where
  base      := base
  offStatus := 0
  offCtrlb  := 1
  offCtrla  := 2
  offDivl   := 4
  offDivh   := 5
  offData   := 6
  posTC     := 6
  posRIP    := 7
  posDS     := 1
  posMODE   := 6
  posPAR    := 4
  posSTOP   := 3
  posSZLO   := 1
  posPOL    := 0
  posSZHI   := 2
  posIEN    := [5, 6, 7]
  prId      := prId
  prBit     := prBit
  xckPin    := xck
  txdPin    := txd
  rxdPin    := rxd

/-- The number a pin goes by in the reference instantiation: eight pins a port, port A first. The spec writes
PE2 and the like; a pin identifier has no structure any rule reads. DESIGN CHOICE (log 4). -/
def pin (port bit : Nat) : Nat := 8 * port + bit

/-- The informative reference instantiation (93_implementation_defined.md section 3): four units, PRR0 at 0x64,
PRR1 at 0x65, 16 MHz, 16-bit addresses. MAX_POLL has no reference value; the original's wait is unbounded.
It is the parameter set of State.reset only. DESIGN CHOICE (log 4). -/
def reference : Params where
  table   := [referenceUnit 0x00C0 0x64 1 (pin 4 2) (pin 4 1) (pin 4 0),
              referenceUnit 0x00C8 0x65 0 (pin 3 5) (pin 3 3) (pin 3 2),
              referenceUnit 0x00D0 0x65 1 (pin 7 2) (pin 7 1) (pin 7 0),
              referenceUnit 0x0130 0x65 2 (pin 9 2) (pin 9 1) (pin 9 0)]
  fOsc    := 16000000
  maxPoll := .unbounded
  addrW   := 16

/-- CMD_PORT_PLACEMENT: opaque, read by no rule (00_scope.md R6; log 27). -/
opaque cmdPortPlacement : Nat

/-! The free values: `draw()` is "any value of the stated width, under no law" (00_scope.md R13). A step applies
them to the counter State.draws and advances it (log 3). -/

opaque drawByte   : Nat → Byte
opaque drawBaud   : Nat → BitVec 32
opaque drawDivq   : Nat → BitVec 12
opaque drawNat    : Nat → Nat
opaque drawBit    : Nat → Bool
opaque drawMode   : Nat → Mode
opaque drawStop   : Nat → Stop
opaque drawSize   : Nat → Size
opaque drawParity : Nat → Parity
opaque drawDir    : Nat → Dir

/-- The quotient of a division by zero, a function of the dividend: R94 says it cannot occur and gives it no
value. Reached only where LAT.baud = 0, which no accepted command leaves (log 16). -/
opaque quotientByZero : Nat → Nat

end Config

end Sys2Proof
end

