-- ==== Sys2Proof/WellFormed.lean ====
section
/-! DEFINITION. Which instructions are well formed: the legal command words of 30_encoding.md R59 (c), (d) and (e), and bus addresses that fit in ADDR_W bits (R61). -/

namespace Sys2Proof

/-- An instruction is well formed, for a bus of `addrW` address bits. The constructors already carry R59 (a) and
(b): OP is INIT's and RSV is 0. -/
def Instr.wf (addrW : Nat) : Instr → Bool
  | .init _ _ _ size par baud => decide (5 ≤ size.toNat) && decide (size.toNat ≤ 9) && decide (par ≠ 3#2) && decide (baud ≠ 0#32)
  | .busRd addr => decide (addr.toNat < 2 ^ addrW)
  | .busWr addr _ => decide (addr.toNat < 2 ^ addrW)
  | .stat => true
  | .phaseIdle => true
  | .phaseResolve => true
  | .phaseValidate => true
  | .phasePoll => true
  | .phaseGuardAcq => true
  | .phasePwrClr => true
  | .phaseModeSel => true
  | .phaseDsWrite => true
  | .phaseXckDir => true
  | .phaseDivHi => true
  | .phaseDivLo => true
  | .phaseFrmSizeLo => true
  | .phaseFrmSizeHi => true
  | .phaseFrmParity => true
  | .phaseFrmStop => true
  | .phaseGuardRel => true

end Sys2Proof
end

