-- ==== Sys2Proof/Decode.lean ====
section
/-! DEFINITION. The decoder, total on whatever arrives at an interface and refusing by name (30_encoding.md R56 to R62, R70), and after it the encoder, written from the same tables. -/

namespace Sys2Proof

/-- Why a value is no instruction. -/
inductive DecodeError where
  /-- OP is not 0001 (R60). -/
  | noSuchCommand (op : BitVec 4)
  /-- RSV is not 0 (R59 (b)). -/
  | reservedNonZero
  /-- The address does not fit in ADDR_W bits, so no transaction carries it (R61). -/
  | addressTooWide
  deriving DecidableEq, Repr

/-- MODE of a command word (R57, R58). -/
def Mode.ofBits (b : BitVec 2) : Mode :=
  match b.toNat with
  | 0 => .na
  | 1 => .da
  | 2 => .ms
  | _ => .ss

/-- STOP of a command word (R57, R58): stop = 1 + w[21]. -/
def Stop.ofBits (b : BitVec 1) : Stop := if b = 0#1 then .one else .two

/-- The phase a code stands for (R62). -/
def Phase.ofCode (c : BitVec 4) : Phase :=
  match c.toNat with
  | 0 => .idle
  | 1 => .resolve
  | 2 => .validate
  | 3 => .poll
  | 4 => .guardAcq
  | 5 => .pwrClr
  | 6 => .modeSel
  | 7 => .dsWrite
  | 8 => .xckDir
  | 9 => .divHi
  | 10 => .divLo
  | 11 => .frmSizeLo
  | 12 => .frmSizeHi
  | 13 => .frmParity
  | 14 => .frmStop
  | _ => .guardRel

/-- The opcode-table row of a phase. -/
def Phase.instr : Phase → Instr
  | .idle => .phaseIdle
  | .resolve => .phaseResolve
  | .validate => .phaseValidate
  | .poll => .phasePoll
  | .guardAcq => .phaseGuardAcq
  | .pwrClr => .phasePwrClr
  | .modeSel => .phaseModeSel
  | .dsWrite => .phaseDsWrite
  | .xckDir => .phaseXckDir
  | .divHi => .phaseDivHi
  | .divLo => .phaseDivLo
  | .frmSizeLo => .phaseFrmSizeLo
  | .frmSizeHi => .phaseFrmSizeHi
  | .frmParity => .phaseFrmParity
  | .frmStop => .phaseFrmStop
  | .guardRel => .phaseGuardRel

/-- A command word (R57, R58, R60). R59 (a) and (b) are checked here; (c), (d) and (e) when it is executed
(log 21). -/
def decodeCmd (w : CmdWord) : Except DecodeError Instr :=
  if w.extractLsb' 28 4 ≠ 1#4 then .error (.noSuchCommand (w.extractLsb' 28 4))
  else if w.extractLsb' 0 15 ≠ 0#15 then .error .reservedNonZero
  else .ok (.init (w.extractLsb' 24 4) (Mode.ofBits (w.extractLsb' 22 2)) (Stop.ofBits (w.extractLsb' 21 1))
    (w.extractLsb' 17 4) (w.extractLsb' 15 2) (w.extractLsb' 32 32))

/-- A bus transaction (R61). DATA is ignored on a read. -/
def decodeBus (addrW : Nat) (we : Bool) (addr : BusAddr) (data : Byte) : Except DecodeError Instr :=
  if 2 ^ addrW ≤ addr.toNat then .error .addressTooWide
  else .ok (if we then .busWr addr data else .busRd addr)

/-- The decoder: each interface has one format (R56). -/
def decode (addrW : Nat) : PortWord → Except DecodeError Instr
  | .cmd64 w => decodeCmd w
  | .cmdRd => .ok .stat
  | .bustx we addr data => decodeBus addrW we addr data
  | .phase4 c => .ok (Phase.ofCode c).instr

/-! ## The encoder -/

/-- The MODE bits of a command word (R57). -/
def Mode.bits : Mode → BitVec 2
  | .na => 0#2
  | .da => 1#2
  | .ms => 2#2
  | .ss => 3#2

/-- The STOP bit of a command word (R57). -/
def Stop.bits : Stop → BitVec 1
  | .one => 0#1
  | .two => 1#1

/-- The code of a phase (R62). -/
def Phase.code : Phase → BitVec 4
  | .idle => 0#4
  | .resolve => 1#4
  | .validate => 2#4
  | .poll => 3#4
  | .guardAcq => 4#4
  | .pwrClr => 5#4
  | .modeSel => 6#4
  | .dsWrite => 7#4
  | .xckDir => 8#4
  | .divHi => 9#4
  | .divLo => 10#4
  | .frmSizeLo => 11#4
  | .frmSizeHi => 12#4
  | .frmParity => 13#4
  | .frmStop => 14#4
  | .guardRel => 15#4

/-- The CMD64 word of an INIT: BAUD, OP, UNIT, MODE, STOP, SIZE, PAR, RSV from bit 63 down (R57). -/
def encodeInit (unit : BitVec 4) (mode : Mode) (stop : Stop) (size : BitVec 4) (par : BitVec 2) (baud : BitVec 32) : CmdWord :=
  baud ++ (1#4 ++ (unit ++ (mode.bits ++ (stop.bits ++ (size ++ (par ++ 0#15))))))

/-- The encoder. A BUS.RD's DATA is ignored on input (R61), so it is written 0. -/
def encode : Instr → PortWord
  | .init unit mode stop size par baud => .cmd64 (encodeInit unit mode stop size par baud)
  | .stat => .cmdRd
  | .busRd addr => .bustx false addr 0#8
  | .busWr addr data => .bustx true addr data
  | .phaseIdle => .phase4 Phase.idle.code
  | .phaseResolve => .phase4 Phase.resolve.code
  | .phaseValidate => .phase4 Phase.validate.code
  | .phasePoll => .phase4 Phase.poll.code
  | .phaseGuardAcq => .phase4 Phase.guardAcq.code
  | .phasePwrClr => .phase4 Phase.pwrClr.code
  | .phaseModeSel => .phase4 Phase.modeSel.code
  | .phaseDsWrite => .phase4 Phase.dsWrite.code
  | .phaseXckDir => .phase4 Phase.xckDir.code
  | .phaseDivHi => .phase4 Phase.divHi.code
  | .phaseDivLo => .phase4 Phase.divLo.code
  | .phaseFrmSizeLo => .phase4 Phase.frmSizeLo.code
  | .phaseFrmSizeHi => .phase4 Phase.frmSizeHi.code
  | .phaseFrmParity => .phase4 Phase.frmParity.code
  | .phaseFrmStop => .phase4 Phase.frmStop.code
  | .phaseGuardRel => .phase4 Phase.guardRel.code

/-! ## Words as the opcode table numbers them -/

/-- The value that arrives when the opcode table's bits of a row are `w`, `nbits` of them. The spec tells formats
apart by the interface (R56), so the width has to: no bits is a read of the command port, at most 8 bits a phase
code, 32 or 64 bits a command word (the bits above nbits are 0), and any other width, or 32 bits whose top seven
are 0, a BUSTX packed as WE, ADDR, DATA from the top with the 16 address bits of the reference instantiation.
DESIGN CHOICE (log 17). -/
def PortWord.ofTable (nbits w : Nat) : Option PortWord :=
  if nbits = 0 then some .cmdRd
  else if nbits ≤ 8 then if w < 16 then some (.phase4 (BitVec.ofNat 4 w)) else none
  else if nbits = 64 ∨ nbits = 32 ∧ 2 ^ 25 ≤ w then
    if w < 2 ^ nbits then some (.cmd64 (BitVec.ofNat 64 w)) else none
  else if w < 2 ^ 25 then
    some (.bustx (w.testBit 24) (BitVec.ofNat 32 (w / 2 ^ 8 % 2 ^ 16)) (BitVec.ofNat 8 w))
  else none

/-- The instruction the decoder reads from a word numbered as the opcode table numbers it. -/
def decodeTableWord (nbits w : Nat) : Option Instr :=
  match PortWord.ofTable nbits w with
  | none => none
  | some p =>
    match decode 16 p with
    | .ok i => some i
    | .error _ => none

end Sys2Proof
end

