-- ==== Sys2Proof/Machine/State.lean ====
section
/-! DEFINITION. The state as plain data: all that 10_state.md gives the machine, the parameters of the machine, the model's own fields, the reasons a step can stop, and the reset state. -/

namespace Sys2Proof.Machine

/-- The stored bits of a unit's six registers (10_state.md R18). DIVH[7:4] is hard-wired 0 and not stored (R22).
DATA is stored because R18 and R38 list it; no read returns it and no host write changes it (R23). -/
structure UnitRegs where
  status : Byte
  ctrla  : Byte
  ctrlb  : Byte
  divl   : Byte
  divh   : BitVec 4
  data   : Byte
  deriving DecidableEq, Repr

/-- LAT, the latched command (10_state.md R29). -/
structure Latch where
  unit   : BitVec 4
  mode   : Mode
  stop   : Stop
  size   : Size
  parity : Parity
  baud   : BitVec 32
  deriving DecidableEq, Repr

/-- The completion codes of SEQSTAT.RESULT that are produced (30_encoding.md R68). -/
inductive ResultCode where
  | ok
  | unsupportedDivisor
  | invalidUnit
  | timeout
  deriving DecidableEq, Repr

/-- The rejection codes of SEQSTAT.REJECT that are produced (30_encoding.md R69). -/
inductive RejectCode where
  | none
  | busy
  | illegalCommand
  deriving DecidableEq, Repr

/-- The duties of MAIN (60_exceptions.md R110, R112). -/
inductive HazardKind where
  | unitAccess
  | ieWrite
  | prWrite
  | xckWrite
  deriving DecidableEq, Repr

/-- The model faults that FAULTS records (60_exceptions.md R110). They are part of the spec's state and do not stop
the machine. -/
inductive ModelFault where
  | unmappedAccess (addr : BusAddr)
  | hostHazard (kind : HazardKind)
  deriving DecidableEq, Repr

/-- The two contexts of the host's thread (00_scope.md R9). -/
inductive HostAgent where
  | main
  | isr
  deriving DecidableEq, Repr

/-- One step of MAIN or ISR (00_scope.md R11). -/
inductive HostAct where
  /-- A write of the command port. -/
  | cmdWrite (w : CmdWord)
  /-- A read of SEQSTAT. -/
  | cmdRead
  /-- A register-bus transaction. -/
  | bus (we : Bool) (addr : BusAddr) (data : Byte)
  /-- A write of a power-reduction register. -/
  | prWrite (id : Nat) (v : Byte)
  /-- A write of a GPIO direction. -/
  | dirWrite (pin : Nat) (d : Dir)
  /-- A write of IE; MAIN's only. -/
  | ieWrite (b : Bool)
  deriving DecidableEq, Repr

/-- Whose turn it is in the interleaving, and what it does (00_scope.md R9 to R12, 70_reset_and_hazards.md R124). -/
inductive Turn where
  | seq
  | host (a : HostAgent) (act : HostAct)
  /-- LINE sets TC and RIP of a unit to any values (R12). -/
  | line (u : Nat) (tc rip : Bool)
  /-- The reset input (R124). -/
  | reset
  deriving DecidableEq, Repr

/-- A keyed store: entries with rising keys, none equal to what an unlisted key reads as (Store.Wf in Ops.lean). -/
abbrev Store (α : Type) := List (Nat × α)

/-- The machine's state. The first group is the spec's (10_state.md R18 to R34), then the parameters of the machine
(00_scope.md R6), then the model's own fields. -/
structure State where
  phase   : Phase             -- PHASE (R28)
  lat     : Latch             -- LAT (R29)
  divq    : BitVec 12         -- DIVQ (R30)
  prior   : Bool              -- PRIOR (R31)
  pcnt    : Nat               -- PCNT (R32)
  done    : Bool              -- SEQSTAT.DONE (R33); BUSY is computed from PHASE
  result  : ResultCode        -- SEQSTAT.RESULT (R33)
  reject  : RejectCode        -- SEQSTAT.REJECT (R33)
  faults  : List ModelFault   -- FAULTS, without repeats (R34)
  units   : Store UnitRegs    -- the unit register files, by unit id (R18)
  ie      : Bool              -- IE (R24)
  pr      : Store Byte        -- PR, by id (R25)
  dir     : Store Dir         -- DIR, by pin (R26)
  cfg     : Params            -- the parameter set; no step changes it (log 4)
  sched   : List Turn         -- the turns still to be taken, the next one first (log 1)
  agent   : HostAgent         -- who issues the present port transaction (log 8)
  draws   : Nat               -- the counter the free values are applied to (log 3)
  busOut  : Byte              -- what the last BUS.RD returned (log 7)
  statOut : Byte              -- what the last STAT returned (log 7)
  deriving DecidableEq, Repr

/-- Why the machine stops. The spec's own faults are no stops: they are recorded in State.faults (60 R109). -/
inductive Fault where
  /-- Raised by a phase that needs UNIT_TABLE(LAT.unit) when LAT.unit ≥ N_UNITS. 40_command_port.md R79 says no such
  id reaches the resolver inside the machine, so no run meets it. Safe (log 14). -/
  | unresolvedUnit
  deriving DecidableEq, Repr

/-- Why a step has no meaning. -/
inductive Refusal where
  /-- Raised by an arm of exec whose instruction has no meaning yet; none is left. Safe. -/
  | notModelled (mnemonic : String)
  /-- Raised by step when the parameter set breaks 00_scope.md R7: no machine exists for it (60 R111). Safe (log 13). -/
  | badConfiguration
  /-- Raised by step on a bus address that ADDR_W bits cannot carry, which is no transaction (30 R61). Safe (log 18). -/
  | addressTooWide
  deriving DecidableEq, Repr

/-- The state the spec leaves a draw at reset (10_state.md R38). -/
structure Undetermined where
  lat   : Latch
  divq  : BitVec 12
  prior : Bool
  pcnt  : Nat
  units : Store UnitRegs
  pr    : Store Byte
  dir   : Store Dir
  deriving DecidableEq, Repr

/-- The reset state of a machine with parameters `c`, for any values `u` of what 10_state.md R38 leaves a draw
(70_reset_and_hazards.md R124). -/
def State.resetWith (c : Params) (u : Undetermined) : State where
  phase   := .idle
  lat     := u.lat
  divq    := u.divq
  prior   := u.prior
  pcnt    := u.pcnt
  done    := false
  result  := .ok
  reject  := .none
  faults  := []
  units   := u.units
  ie      := false
  pr      := u.pr
  dir     := u.dir
  cfg     := c
  sched   := []
  agent   := .main
  draws   := 0
  busOut  := 0#8
  statOut := 0#8

/-- The values State.reset takes for the draws: the latches hold the least legal command and zeros, DESIGN CHOICE
(log 6). The stores list nothing, so every unit register, PR and DIR reads as the reference part's reset value,
PRESUMED (log 5). -/
def Undetermined.named : Undetermined where
  lat   := ⟨0#4, .na, .one, .five, .none, 1#32⟩
  divq  := 0#12
  prior := false
  pcnt  := 0
  units := []
  pr    := []
  dir   := []

/-- The machine right after reset: the values of 10_state.md R38, the named values for what it leaves a draw, and
the reference parameters (log 4). -/
def State.reset : State := State.resetWith Config.reference Undetermined.named

end Sys2Proof.Machine
end

