-- ==== Sys2Proof/Machine/Resolver.lean ====
section
/-! DEFINITION. The Unit Resolver: register addresses, the look-up of an address, and when a parameter set is valid (00_scope.md R7, 10_state.md R17, 20_memory.md R41). -/

namespace Sys2Proof.Machine

/-- The six registers of a unit. -/
def Reg.all : List Reg := [.status, .ctrla, .ctrlb, .divl, .divh, .data]

/-- off(r) (10_state.md R16). -/
def offsetOf (d : UnitDesc) : Reg → Nat
  | .status => d.offStatus
  | .ctrla => d.offCtrla
  | .ctrlb => d.offCtrlb
  | .divl => d.offDivl
  | .divh => d.offDivh
  | .data => d.offData

/-- The bus address of a register of a unit (20_memory.md R41). -/
def addressOf (d : UnitDesc) (r : Reg) : Nat := d.base + offsetOf d r

/-- The six addresses of a unit's window. -/
def window (d : UnitDesc) : List Nat := Reg.all.map (addressOf d)

/-- The register of a unit that has the address `a`. -/
def regAt (d : UnitDesc) (a : Nat) : Option Reg := Reg.all.find? (fun r => addressOf d r = a)

/-- The unit and register at address `a`, with ids counted from `u`. -/
def locateFrom (a : Nat) : Nat → List UnitDesc → Option (Nat × Reg)
  | _, [] => none
  | u, d :: ds =>
    match regAt d a with
    | some r => some (u, r)
    | none => locateFrom a (u + 1) ds

/-- The unit and register at a bus address; none when it is unmapped (20_memory.md R41). -/
def locate (p : Params) (a : Nat) : Option (Nat × Reg) := locateFrom a 0 p.table

/-- resolve(u) = UNIT_TABLE(u) (40_command_port.md R79). -/
def resolve (p : Params) (u : Nat) : Option UnitDesc := p.table[u]?

/-- The bits of CTRLA its five named fields occupy, one entry a bit (10_state.md R17 (d)). -/
def ctrlaBits (d : UnitDesc) : List Nat :=
  [d.posMODE.val, d.posMODE.val + 1, d.posPAR.val, d.posPAR.val + 1, d.posSZLO.val, d.posSZLO.val + 1, d.posSTOP.val, d.posPOL.val]

/-- 10_state.md R17 (a), (c), (d), (e): what each record of the table meets by itself. -/
def unitValid (addrW : Nat) (d : UnitDesc) : Bool :=
  decide (window d).Nodup && (window d).all (fun a => decide (a < 2 ^ addrW))
    && decide [d.posTC, d.posRIP, d.posDS].Nodup && decide (ctrlaBits d).Nodup && !d.posIEN.contains d.posSZHI

/-- 10_state.md R17 (b), (f), (g): what two distinct units meet together. -/
def unitsApart (d e : UnitDesc) : Bool :=
  (window d).all (fun a => !(window e).contains a) && !(d.prId == e.prId && d.prBit == e.prBit) && !(d.xckPin == e.xckPin)

/-- `unitsApart` of every two records at different places of the table. -/
def allApart : List UnitDesc → Bool
  | [] => true
  | d :: ds => ds.all (unitsApart d) && allApart ds

/-- The bound of MAX_POLL: BOUNDED n has n ≥ 1 (00_scope.md R6). -/
def maxPollValid : MaxPoll → Bool
  | .unbounded => true
  | .bounded n => decide (1 ≤ n)

/-- A valid parameter set (00_scope.md R7). -/
def paramsValid (p : Params) : Bool :=
  decide (1 ≤ p.nUnits) && decide (p.nUnits ≤ 16) && decide (1 ≤ p.fOsc) && decide (p.fOsc < 2 ^ 32)
    && maxPollValid p.maxPoll && decide (1 ≤ p.addrW) && decide (p.addrW ≤ 32)
    && p.table.all (unitValid p.addrW) && allApart p.table

end Sys2Proof.Machine
end

