-- ==== Sys2Proof/Machine/Operands.lean ====
section
/-! DEFINITION. Operand forms: the operands of a command word (30_encoding.md R58, R59), the codes the UCB writes (R63 to R69), the mode encoder, the divisor calculator (42_mode_clock.md R92, R93), the frame encoder (43_frame.md R101) and the register fields (10_state.md R19 to R22, 20_memory.md R46). -/

namespace Sys2Proof.Machine

/-! ## The operands of a command word -/

/-- SIZE, legal for 5 to 9 (30_encoding.md R58, R59 (c)). -/
def sizeOfRaw (b : BitVec 4) : Option Size :=
  match b.toNat with
  | 5 => some .five
  | 6 => some .six
  | 7 => some .seven
  | 8 => some .eight
  | 9 => some .nine
  | _ => none

/-- PAR, where 11 is illegal (R57, R59 (d)). -/
def parityOfRaw (b : BitVec 2) : Option Parity :=
  match b.toNat with
  | 0 => some .none
  | 1 => some .even
  | 2 => some .odd
  | _ => none

/-- fields(w) when the word is legal, none when it is not (R58, R59). -/
def latchOf (unit : BitVec 4) (mode : Mode) (stop : Stop) (size : BitVec 4) (par : BitVec 2) (baud : BitVec 32) : Option Latch :=
  match sizeOfRaw size, parityOfRaw par with
  | some z, some q => if baud = 0#32 then none else some ⟨unit, mode, stop, z, q, baud⟩
  | _, _ => none

/-! ## The codes the UCB writes -/

/-- CTRLA.MODE: async 00, sync 01 (30_encoding.md R63, 42_mode_clock.md R92). -/
def modeCode : Mode → BitVec 2
  | .na => 0#2
  | .da => 0#2
  | .ms => 1#2
  | .ss => 1#2

/-- STATUS.DS: on in DA only (30_encoding.md R67, 42_mode_clock.md R92). -/
def dsCode : Mode → BitVec 1
  | .da => 1#1
  | .na => 0#1
  | .ms => 0#1
  | .ss => 0#1

/-- The direction XCK_DIR sets; none where the pin is not written (42_mode_clock.md R92). -/
def xckDirection : Mode → Option Dir
  | .na => none
  | .da => none
  | .ms => some .output
  | .ss => some .input

/-- The 3-bit data-size code SZHI, SZLO (30_encoding.md R64). -/
def sizeCode : Size → BitVec 3
  | .five => 0b000#3
  | .six => 0b001#3
  | .seven => 0b010#3
  | .eight => 0b011#3
  | .nine => 0b111#3

/-- The low data-size bits, in CTRLA. -/
def szlo (z : Size) : BitVec 2 := (sizeCode z).extractLsb' 0 2

/-- The data-size high bit, in CTRLB. -/
def szhi (z : Size) : BitVec 1 := (sizeCode z).extractLsb' 2 1

/-- CTRLA.PAR (30_encoding.md R65). -/
def parCode : Parity → BitVec 2
  | .none => 0b00#2
  | .even => 0b10#2
  | .odd => 0b11#2

/-- CTRLA.STOP (30_encoding.md R66). -/
def stopCode : Stop → BitVec 1
  | .one => 0#1
  | .two => 1#1

/-- The frame encoder: SZHI, SZLO, PAR, STOP (43_frame.md R101). -/
def frame (z : Size) (q : Parity) (st : Stop) : BitVec 1 × BitVec 2 × BitVec 2 × BitVec 1 :=
  (szhi z, szlo z, parCode q, stopCode st)

/-- SEQSTAT.RESULT (30_encoding.md R68). -/
def resultBits : ResultCode → BitVec 3
  | .ok => 0b000#3
  | .unsupportedDivisor => 0b001#3
  | .invalidUnit => 0b010#3
  | .timeout => 0b011#3

/-- SEQSTAT.REJECT (30_encoding.md R69). -/
def rejectBits : RejectCode → BitVec 2
  | .none => 0b00#2
  | .busy => 0b01#2
  | .illegalCommand => 0b10#2

/-! ## The divisor calculator -/

/-- The multiplier of a mode; none for SS, whose clock is supplied from outside (42_mode_clock.md R92). -/
def multiplier : Mode → Option Nat
  | .na => some 16
  | .da => some 8
  | .ms => some 2
  | .ss => none

/-- F_OSC div (m × baud), exact. R94 says the divisor is never 0; where it would be, the quotient is a free value
(log 16). -/
def quotient (fOsc m baud : Nat) : Nat := if m * baud = 0 then Config.quotientByZero fOsc else fOsc / (m * baud)

/-- The range check on the exact integer d = q - 1 (42_mode_clock.md R93, R94): none is ERR. -/
def divisorOfQuotient (q : Nat) : Option (BitVec 12) :=
  if (q : Int) - 1 < 0 ∨ (4095 : Int) < (q : Int) - 1 then none else some (BitVec.ofInt 12 ((q : Int) - 1))

/-- divisor(mode, baud), none for ERR (R93); it is called with the multiplier of a mode that has one. -/
def divisor (fOsc m baud : Nat) : Option (BitVec 12) := divisorOfQuotient (quotient fOsc m baud)

/-! ## Register fields -/

/-- A field of a unit register: its register, its least significant bit and its width. -/
structure RegField where
  reg   : Reg
  lo    : Nat
  width : Nat
  deriving DecidableEq, Repr

abbrev fieldMode (d : UnitDesc) : RegField := ⟨.ctrla, d.posMODE.val, 2⟩
abbrev fieldPar (d : UnitDesc) : RegField := ⟨.ctrla, d.posPAR.val, 2⟩
abbrev fieldStop (d : UnitDesc) : RegField := ⟨.ctrla, d.posSTOP.val, 1⟩
abbrev fieldSzlo (d : UnitDesc) : RegField := ⟨.ctrla, d.posSZLO.val, 2⟩
abbrev fieldPol (d : UnitDesc) : RegField := ⟨.ctrla, d.posPOL.val, 1⟩
abbrev fieldSzhi (d : UnitDesc) : RegField := ⟨.ctrlb, d.posSZHI.val, 1⟩
abbrev fieldDs (d : UnitDesc) : RegField := ⟨.status, d.posDS.val, 1⟩
abbrev fieldDivHi : RegField := ⟨.divh, 0, 4⟩
abbrev fieldDivLo : RegField := ⟨.divl, 0, 8⟩

/-- The bits a field of width `w` at bit `lo` occupies in a byte. -/
def fieldMask (lo w : Nat) : Byte := ((1#8 <<< w) - 1#8) <<< lo

/-- The byte with the field replaced (20_memory.md R46). -/
def insertField (x : Byte) (lo w : Nat) (v : Byte) : Byte := (x &&& ~~~ fieldMask lo w) ||| (v <<< lo)

/-- The value of a field of a byte. -/
def fieldOf (x : Byte) (lo w : Nat) : BitVec w := x.extractLsb' lo w

end Sys2Proof.Machine
end

