-- ==== Sys2Proof/Machine/Flags.lean ====
section
/-! DEFINITION. Flags: quiescence (41_sequencer.md R85), the transfer flags of STATUS (00_scope.md R12, 20_memory.md R45) and the SEQSTAT byte (10_state.md R33). -/

namespace Sys2Proof.Machine

/-- Quiescence of a STATUS value: TC = 1 and RIP = 0 (41_sequencer.md R85). -/
def quiescent (d : UnitDesc) (status : Byte) : Bool := status.getLsbD d.posTC.val && !status.getLsbD d.posRIP.val

/-- The bits of STATUS that hold TC and RIP. -/
def lineMask (d : UnitDesc) : Byte := (1#8 <<< d.posTC.val) ||| (1#8 <<< d.posRIP.val)

/-- STATUS with TC and RIP taken from `flags` and every other bit from `other`. -/
def withLineBits (d : UnitDesc) (other flags : Byte) : Byte := (other &&& ~~~ lineMask d) ||| (flags &&& lineMask d)

/-- A byte with TC and RIP as given and every other bit 0. -/
def lineByte (d : UnitDesc) (tc rip : Bool) : Byte :=
  (if tc then 1#8 <<< d.posTC.val else 0#8) ||| (if rip then 1#8 <<< d.posRIP.val else 0#8)

/-- BUSY is computed from PHASE (10_state.md R33). -/
def State.busy (s : State) : Bool := decide (s.phase ≠ .idle)

/-- The SEQSTAT byte: 0, REJECT, RESULT, DONE, BUSY from bit 7 down (10_state.md R33, 40_command_port.md R76). -/
def State.seqstat (s : State) : Byte :=
  0#1 ++ (rejectBits s.reject ++ (resultBits s.result ++ (BitVec.ofBool s.done ++ BitVec.ofBool s.busy)))

end Sys2Proof.Machine
end

