-- ==== Sys2Proof/Machine/Ops.lean ====
section
/-! DEFINITION. The named operations over the state: the keyed stores, the unit registers as the bus and the sequencer reach them (20_memory.md R43 to R46), the collaborator contracts (10_state.md R24 to R26), finish, reject and raise (41 R83, 40 R72, 60 R109), and reset (70 R124). The UCB takes no trap and has no return from one (60 R114, R115); `raise` and `finish` are its only ways to report an error. -/

namespace Sys2Proof.Machine

/-! ## Keyed stores -/

/-- What key `k` holds; `d` is what an unlisted key reads as. -/
def Store.read {α : Type} (d : α) : Store α → Nat → α
  | [], _ => d
  | (j, v) :: t, k => if j = k then v else Store.read d t k

/-- Put a listed value at its place. -/
def Store.insert {α : Type} : Store α → Nat → α → Store α
  | [], k, v => [(k, v)]
  | (j, w) :: t, k, v =>
    if k < j then (k, v) :: (j, w) :: t
    else if k = j then (k, v) :: t
    else (j, w) :: Store.insert t k v

/-- Remove a key. -/
def Store.erase {α : Type} (l : Store α) (k : Nat) : Store α := l.filter (fun e => e.1 != k)

/-- Write `v` at `k`, keeping the canonical form. -/
def Store.write {α : Type} [DecidableEq α] (d : α) (l : Store α) (k : Nat) (v : α) : Store α :=
  if v = d then Store.erase l k else Store.insert l k v

/-- The canonical form: keys strictly rising, no entry equal to what an unlisted key reads as. -/
abbrev Store.Wf {α : Type} (d : α) (l : Store α) : Prop :=
  l.Pairwise (fun a b => a.1 < b.1) ∧ ∀ e ∈ l, e.2 ≠ d

/-- What an unlisted unit's registers read as: the reference part's reset values, STATUS 0x20, CTRLA 0x06 and
zeros (93_implementation_defined.md section 3). PRESUMED (log 5, 23). -/
def UnitRegs.unlisted : UnitRegs := ⟨0x20#8, 0x06#8, 0#8, 0#8, 0#4, 0#8⟩

/-- What an unlisted power-reduction register reads as. PRESUMED (log 5, 23). -/
def prUnlisted : Byte := 0#8

/-- What an unlisted pin's direction reads as. PRESUMED (log 5, 23). -/
def dirUnlisted : Dir := .input

/-! ## Accessors -/

/-- The registers of unit `u`. -/
def State.regsOf (s : State) (u : Nat) : UnitRegs := Store.read UnitRegs.unlisted s.units u

/-- PR[id]. -/
def State.prOf (s : State) (id : Nat) : Byte := Store.read prUnlisted s.pr id

/-- DIR[p]. -/
def State.dirOf (s : State) (p : Nat) : Dir := Store.read dirUnlisted s.dir p

/-- The stored byte of a register; DIVH has its upper four bits 0 (10_state.md R22). -/
def UnitRegs.get (x : UnitRegs) : Reg → Byte
  | .status => x.status
  | .ctrla => x.ctrla
  | .ctrlb => x.ctrlb
  | .divl => x.divl
  | .divh => 0#4 ++ x.divh
  | .data => x.data

/-- Replace the stored byte of a register; DIVH takes its lower four bits (10_state.md R22). -/
def UnitRegs.set (x : UnitRegs) (r : Reg) (v : Byte) : UnitRegs :=
  match r with
  | .status => { x with status := v }
  | .ctrla => { x with ctrla := v }
  | .ctrlb => { x with ctrlb := v }
  | .divl => { x with divl := v }
  | .divh => { x with divh := v.extractLsb' 0 4 }
  | .data => { x with data := v }

/-- Set PHASE. -/
def State.setPhase (s : State) (p : Phase) : State := { s with phase := p }

/-- Replace the registers of unit `u`. -/
def State.setRegs (s : State) (u : Nat) (x : UnitRegs) : State :=
  { s with units := Store.write UnitRegs.unlisted s.units u x }

/-- Take `n` free values. -/
def State.advance (s : State) (n : Nat) : State := { s with draws := s.draws + n }

/-! ## Faults, rejections and completion -/

/-- raise Fault(f): FAULTS is a set (10_state.md R34, 60_exceptions.md R109). -/
def State.raise (s : State) (f : ModelFault) : State :=
  if f ∈ s.faults then s else { s with faults := s.faults ++ [f] }

/-- reject(c): only SEQSTAT.REJECT changes (40_command_port.md R72). -/
def State.rejectWith (s : State) (c : RejectCode) : State := { s with reject := c }

/-- Accept a command (40_command_port.md R72). -/
def State.accept (s : State) (l : Latch) : State :=
  { s with lat := l, done := false, reject := .none, phase := .resolve }

/-- A command word that is no INIT, or no legal one: BUSY is checked before ILLEGAL_COMMAND (40 R72, 60 R113). -/
def State.refuseWord (s : State) : State :=
  if s.phase ≠ .idle then s.rejectWith .busy else s.rejectWith .illegalCommand

/-- A drawn latched command. -/
def Latch.drawn (n : Nat) : Latch :=
  ⟨(Config.drawByte n).extractLsb' 0 4, Config.drawMode n, Config.drawStop n, Config.drawSize n, Config.drawParity n,
   Config.drawBaud n⟩

/-- A drawn PCNT: in 0..n when MAX_POLL = BOUNDED n, held at 0 when UNBOUNDED (10_state.md R32). -/
def drawnPcnt (m : MaxPoll) (n : Nat) : Nat :=
  match m with
  | .unbounded => 0
  | .bounded k => Config.drawNat n % (k + 1)

/-- finish(code) (41_sequencer.md R83). From then on LAT, DIVQ, PRIOR and PCNT hold draws, PCNT in its range (10_state.md
R29, R32; 93_implementation_defined.md U20; logs 9, 10). -/
def State.finish (s : State) (c : ResultCode) : State :=
  { s with
    result := c
    done := true
    phase := .idle
    lat := Latch.drawn s.draws
    divq := Config.drawDivq s.draws
    prior := Config.drawBit s.draws
    pcnt := drawnPcnt s.cfg.maxPoll s.draws
    draws := s.draws + 1 }

/-! ## Unit registers -/

/-- Unit `u` is gated: its power-reduction bit is 1 (10_state.md R25). -/
def State.gated (s : State) (u : Nat) : Bool :=
  match resolve s.cfg u with
  | some d => (s.prOf d.prId).getLsbD d.prBit.val
  | none => false

/-- RegRead(u, r) (20_memory.md R43, R44): a gated unit and DATA answer a fresh draw. -/
def State.regRead (s : State) (u : Nat) (r : Reg) : Byte × State :=
  if s.gated u = true ∨ r = .data then (Config.drawByte s.draws, s.advance 1) else ((s.regsOf u).get r, s)

/-- FieldWrite(u, r, f, v): one atomic replacement of a field, ignored by a gated unit (20_memory.md R46). -/
def State.fieldWrite (s : State) (u : Nat) (f : RegField) (v : BitVec f.width) : State :=
  if s.gated u = true then s
  else s.setRegs u ((s.regsOf u).set f.reg (insertField ((s.regsOf u).get f.reg) f.lo f.width (v.setWidth 8)))

/-- A host write of register `r` of unit `u`, whose record is `d` (20_memory.md R43, R45). In STATUS, TC and RIP
become fresh draws. -/
def State.hostWrite (s : State) (u : Nat) (d : UnitDesc) (r : Reg) (v : Byte) : State :=
  if s.gated u = true then s
  else
    match r with
    | .status => (s.setRegs u ((s.regsOf u).set .status (withLineBits d v (Config.drawByte s.draws)))).advance 1
    | .data => s
    | .ctrla => s.setRegs u ((s.regsOf u).set .ctrla v)
    | .ctrlb => s.setRegs u ((s.regsOf u).set .ctrlb v)
    | .divl => s.setRegs u ((s.regsOf u).set .divl v)
    | .divh => s.setRegs u ((s.regsOf u).set .divh v)

/-- LINE sets TC and RIP of unit `u` and writes nothing else (00_scope.md R12). -/
def State.lineWrite (s : State) (u : Nat) (d : UnitDesc) (tc rip : Bool) : State :=
  s.setRegs u ((s.regsOf u).set .status (withLineBits d (s.regsOf u).status (lineByte d tc rip)))

/-! ## Power-reduction registers -/

/-- The registers of a unit whose every stored bit is a draw, from the six free values at `n` (20_memory.md R43). -/
def UnitRegs.drawn (n : Nat) : UnitRegs :=
  ⟨Config.drawByte n, Config.drawByte (n + 1), Config.drawByte (n + 2), Config.drawByte (n + 3),
   (Config.drawByte (n + 4)).extractLsb' 0 4, Config.drawByte (n + 5)⟩

/-- Writing `v` to PR[id] takes unit `u`'s bit from 1 to 0 (20_memory.md R43). -/
def State.ungates (s : State) (id : Nat) (v : Byte) (u : Nat) : Bool :=
  match resolve s.cfg u with
  | some d => (d.prId == id) && (s.prOf id).getLsbD d.prBit.val && !v.getLsbD d.prBit.val
  | none => false

/-- The unit registers after a write of `v` to PR[id], the units below `n` looked at: those it ungates are drawn,
unit `u` from the six free values at draws + 6u. -/
def State.unitsAfterPr (s : State) (id : Nat) (v : Byte) : Nat → Store UnitRegs
  | 0 => s.units
  | n + 1 =>
    if s.ungates id v n = true then
      Store.write UnitRegs.unlisted (s.unitsAfterPr id v n) n (UnitRegs.drawn (s.draws + 6 * n))
    else s.unitsAfterPr id v n

/-- Some unit below `n` is ungated by the write. -/
def State.anyUngated (s : State) (id : Nat) (v : Byte) : Nat → Bool
  | 0 => false
  | n + 1 => s.ungates id v n || s.anyUngated id v n

/-- PR[id] <- v, whoever writes it (10_state.md R25, 20_memory.md R43). Six free values are set aside for each of the
16 possible units when some unit is ungated, none otherwise. -/
def State.prWrite (s : State) (id : Nat) (v : Byte) : State :=
  { s with
    units := s.unitsAfterPr id v s.cfg.nUnits
    pr := Store.write prUnlisted s.pr id v
    draws := if s.anyUngated id v s.cfg.nUnits = true then s.draws + 96 else s.draws }

/-- clear_bit(register_id, bit_index) (41_sequencer.md R89, 60_exceptions.md R120). -/
def State.clearBit (s : State) (id : Nat) (bit : Fin 8) : State :=
  s.prWrite id (s.prOf id &&& ~~~ (1#8 <<< bit.val))

/-! ## The other collaborators -/

/-- disable(): the token is the present IE, and PRIOR takes it (10_state.md R24, R31). -/
def State.disableInterrupts (s : State) : State := { s with prior := s.ie, ie := false }

/-- enable(t) (10_state.md R24). -/
def State.enableInterrupts (s : State) (t : Bool) : State := { s with ie := t }

/-- set_direction(pin, d) (10_state.md R26). -/
def State.setDirection (s : State) (pin : Nat) (d : Dir) : State :=
  { s with dir := Store.write dirUnlisted s.dir pin d }

/-- The id is a pr_id of the table, so PR[id] is state (10_state.md R25). -/
def prNamed (p : Params) (id : Nat) : Bool := p.table.any (fun d => d.prId == id)

/-- The pin is named in the table, so DIR[pin] is state (10_state.md R26). -/
def pinNamed (p : Params) (pin : Nat) : Bool :=
  p.table.any (fun d => d.xckPin == pin || d.txdPin == pin || d.rxdPin == pin)

/-! ## Reset -/

/-- Drawn registers for the units below the bound. -/
def drawnUnits (n : Nat) : Nat → Store UnitRegs
  | 0 => []
  | k + 1 => Store.write UnitRegs.unlisted (drawnUnits n k) k (UnitRegs.drawn (n + 6 * k))

/-- Drawn power-reduction registers for the records of a table. -/
def drawnPr (n : Nat) : List UnitDesc → Store Byte
  | [] => []
  | d :: ds => Store.write prUnlisted (drawnPr (n + 1) ds) d.prId (Config.drawByte n)

/-- Drawn directions for the pins of a table. -/
def drawnDir (n : Nat) : List UnitDesc → Store Dir
  | [] => []
  | d :: ds =>
    Store.write dirUnlisted
      (Store.write dirUnlisted
        (Store.write dirUnlisted (drawnDir (n + 3) ds) d.rxdPin (Config.drawDir (n + 2)))
        d.txdPin (Config.drawDir (n + 1)))
      d.xckPin (Config.drawDir n)

/-- Draws for everything 10_state.md R38 leaves a draw, from the 161 free values at `n`. -/
def Undetermined.drawn (c : Params) (n : Nat) : Undetermined where
  lat   := Latch.drawn (n + 160)
  divq  := Config.drawDivq (n + 160)
  prior := Config.drawBit (n + 160)
  pcnt  := drawnPcnt c.maxPoll (n + 160)
  units := drawnUnits n c.nUnits
  pr    := drawnPr (n + 96) c.table
  dir   := drawnDir (n + 112) c.table

/-- The reset input: the reset state of 10_state.md R38 with fresh draws (70_reset_and_hazards.md R124; log 12). The
turns still to be taken stay. -/
def State.resetInput (s : State) : State :=
  { State.resetWith s.cfg (Undetermined.drawn s.cfg s.draws) with sched := s.sched, draws := s.draws + 161 }

end Sys2Proof.Machine
end

