-- ==== Sys2Proof/Machine/Bus.lean ====
section
/-! DEFINITION. The register-bus transactions of MAIN and ISR (40_command_port.md R77, R78). -/

namespace Sys2Proof.Machine

/-- The host's main thread steps while a command runs, so the duties of 60_exceptions.md R112 bind it. -/
def State.dutyBound (s : State) : Bool := decide (s.agent = .main) && s.busy

/-- An access to unit `u` breaks duty (a) of 60_exceptions.md R112. -/
def State.breaksUnitDuty (s : State) (u : Nat) : Bool := s.dutyBound && decide (u = s.lat.unit.toNat)

/-- BUS.RD (R77): UnmappedAccess is checked before HostHazard (60 R113). -/
def execBusRd (addr : BusAddr) (s : State) : Host.Outcome State Fault Refusal :=
  match locate s.cfg addr.toNat with
  | none => .next (s.raise (.unmappedAccess addr))
  | some (u, r) =>
    if s.breaksUnitDuty u = true then .next (s.raise (.hostHazard .unitAccess))
    else .next { (s.regRead u r).2 with busOut := (s.regRead u r).1 }

/-- BUS.WR (R78). -/
def execBusWr (addr : BusAddr) (data : Byte) (s : State) : Host.Outcome State Fault Refusal :=
  match locate s.cfg addr.toNat with
  | none => .next (s.raise (.unmappedAccess addr))
  | some (u, r) =>
    if s.breaksUnitDuty u = true then .next (s.raise (.hostHazard .unitAccess))
    else
      match resolve s.cfg u with
      | some d => .next (s.hostWrite u d r data)
      | none => .fault .unresolvedUnit

end Sys2Proof.Machine
end

