-- ==== Sys2Proof/Machine/CommandPort.lean ====
section
/-! DEFINITION. The command port: INIT's acceptance step and STAT (40_command_port.md R72, R76). -/

namespace Sys2Proof.Machine

/-- INIT: the acceptance step (R72). BUSY is checked before the legality of the word (60 R113). -/
def execInit (unit : BitVec 4) (mode : Mode) (stop : Stop) (size : BitVec 4) (par : BitVec 2) (baud : BitVec 32) (s : State) :
    Host.Outcome State Fault Refusal :=
  if s.phase ≠ .idle then .next (s.rejectWith .busy)
  else
    match latchOf unit mode stop size par baud with
    | some l => .next (s.accept l)
    | none => .next (s.rejectWith .illegalCommand)

/-- STAT: returns the SEQSTAT byte (R76). -/
def execStat (s : State) : Host.Outcome State Fault Refusal := .next { s with statOut := s.seqstat }

end Sys2Proof.Machine
end

