-- ==== Sys2Proof/Machine/Sequencer.lean ====
section
/-! DEFINITION. The sequencer's control phases: IDLE, RESOLVE, VALIDATE, POLL, GUARD_ACQ, PWR_CLR and GUARD_REL (40_command_port.md R80, 41_sequencer.md R81 to R90). -/

namespace Sys2Proof.Machine

/-- Run `k` with LAT.unit and its record. Inside the machine a unit id is below N_UNITS (40 R79); in a state where
LAT.unit is not, the phase stops by name (log 14). -/
def withUnit (s : State) (k : Nat → UnitDesc → Host.Outcome State Fault Refusal) : Host.Outcome State Fault Refusal :=
  match resolve s.cfg s.lat.unit.toNat with
  | some d => k s.lat.unit.toNat d
  | none => .fault .unresolvedUnit

/-- PHASE.IDLE: SEQ has no step (R82). -/
def execPhaseIdle (s : State) : Host.Outcome State Fault Refusal := .next s

/-- PHASE.RESOLVE (40 R80). -/
def execPhaseResolve (s : State) : Host.Outcome State Fault Refusal :=
  if s.cfg.nUnits ≤ s.lat.unit.toNat then .next (s.finish .invalidUnit) else .next (s.setPhase .validate)

/-- PHASE.VALIDATE (R84). -/
def execPhaseValidate (s : State) : Host.Outcome State Fault Refusal :=
  match multiplier s.lat.mode with
  | none => .next { s with pcnt := 0, phase := .poll }
  | some m =>
    match divisor s.cfg.fOsc m s.lat.baud.toNat with
    | none => .next (s.finish .unsupportedDivisor)
    | some d => .next { s with divq := d, pcnt := 0, phase := .poll }

/-- PHASE.POLL (R86). -/
def execPhasePoll (s : State) : Host.Outcome State Fault Refusal :=
  withUnit s fun u d =>
    if quiescent d (s.regRead u .status).1 = true then .next ((s.regRead u .status).2.setPhase .guardAcq)
    else
      match s.cfg.maxPoll with
      | .unbounded => .next ((s.regRead u .status).2.setPhase .poll)
      | .bounded n =>
        if s.pcnt + 1 = n then .next ((s.regRead u .status).2.finish .timeout)
        else .next { (s.regRead u .status).2 with pcnt := s.pcnt + 1, phase := .poll }

/-- PHASE.GUARD_ACQ (R88). -/
def execPhaseGuardAcq (s : State) : Host.Outcome State Fault Refusal := .next (s.disableInterrupts.setPhase .pwrClr)

/-- PHASE.PWR_CLR (R89). -/
def execPhasePwrClr (s : State) : Host.Outcome State Fault Refusal :=
  withUnit s fun _ d => .next ((s.clearBit d.prId d.prBit).setPhase .modeSel)

/-- PHASE.GUARD_REL (R90). -/
def execPhaseGuardRel (s : State) : Host.Outcome State Fault Refusal := .next ((s.enableInterrupts s.prior).finish .ok)

end Sys2Proof.Machine
end

