-- ==== Sys2Proof/Machine/Frame.lean ====
section
/-! DEFINITION. The Frame Configurator's phases: FRM_SIZE_LO, FRM_SIZE_HI, FRM_PARITY and FRM_STOP (43_frame.md R104 to R107). -/

namespace Sys2Proof.Machine

/-- PHASE.FRM_SIZE_LO (R104). -/
def execPhaseFrmSizeLo (s : State) : Host.Outcome State Fault Refusal :=
  withUnit s fun u d => .next ((s.fieldWrite u (fieldSzlo d) (szlo s.lat.size)).setPhase .frmSizeHi)

/-- PHASE.FRM_SIZE_HI (R105). -/
def execPhaseFrmSizeHi (s : State) : Host.Outcome State Fault Refusal :=
  withUnit s fun u d => .next ((s.fieldWrite u (fieldSzhi d) (szhi s.lat.size)).setPhase .frmParity)

/-- PHASE.FRM_PARITY (R106). -/
def execPhaseFrmParity (s : State) : Host.Outcome State Fault Refusal :=
  withUnit s fun u d => .next ((s.fieldWrite u (fieldPar d) (parCode s.lat.parity)).setPhase .frmStop)

/-- PHASE.FRM_STOP (R107). -/
def execPhaseFrmStop (s : State) : Host.Outcome State Fault Refusal :=
  withUnit s fun u d => .next ((s.fieldWrite u (fieldStop d) (stopCode s.lat.stop)).setPhase .guardRel)

end Sys2Proof.Machine
end

