-- ==== Sys2Proof/Machine/ModeClock.lean ====
section
/-! DEFINITION. The Mode/Clock Configurator's phases: MODE_SEL, DS_WRITE, XCK_DIR, DIV_HI and DIV_LO (42_mode_clock.md R96 to R100). -/

namespace Sys2Proof.Machine

/-- PHASE.MODE_SEL (R96). -/
def execPhaseModeSel (s : State) : Host.Outcome State Fault Refusal :=
  withUnit s fun u d => .next ((s.fieldWrite u (fieldMode d) (modeCode s.lat.mode)).setPhase .dsWrite)

/-- The phase after DS_WRITE (R97, 41 R81). -/
def afterDsWrite : Mode → Phase
  | .na => .divHi
  | .da => .divHi
  | .ms => .xckDir
  | .ss => .xckDir

/-- PHASE.DS_WRITE (R97). -/
def execPhaseDsWrite (s : State) : Host.Outcome State Fault Refusal :=
  withUnit s fun u d => .next ((s.fieldWrite u (fieldDs d) (dsCode s.lat.mode)).setPhase (afterDsWrite s.lat.mode))

/-- PHASE.XCK_DIR (R98). NA and DA never reach this phase, and R98 gives them no effect: nothing changes (log 15). -/
def execPhaseXckDir (s : State) : Host.Outcome State Fault Refusal :=
  withUnit s fun _ d =>
    match s.lat.mode with
    | .ms => .next ((s.setDirection d.xckPin .output).setPhase .divHi)
    | .ss => .next ((s.setDirection d.xckPin .input).setPhase .frmSizeLo)
    | .na => .next s
    | .da => .next s

/-- PHASE.DIV_HI (R99). -/
def execPhaseDivHi (s : State) : Host.Outcome State Fault Refusal :=
  withUnit s fun u _ => .next ((s.fieldWrite u fieldDivHi (s.divq.extractLsb' 8 4)).setPhase .divLo)

/-- PHASE.DIV_LO (R100). -/
def execPhaseDivLo (s : State) : Host.Outcome State Fault Refusal :=
  withUnit s fun u _ => .next ((s.fieldWrite u fieldDivLo (s.divq.extractLsb' 0 8)).setPhase .frmSizeLo)

end Sys2Proof.Machine
end

