-- ==== Sys2Proof/Machine/Dispatch.lean ====
section
/-! DEFINITION. exec: one arm per instruction, each one call of its meaning. -/

namespace Sys2Proof.Machine

def exec (i : Instr) (s : State) : Host.Outcome State Fault Refusal :=
  match i with
  | .init unit mode stop size par baud => Sys2Proof.Machine.execInit unit mode stop size par baud s
  | .stat => Sys2Proof.Machine.execStat s
  | .busRd addr => Sys2Proof.Machine.execBusRd addr s
  | .busWr addr data => Sys2Proof.Machine.execBusWr addr data s
  | .phaseIdle => Sys2Proof.Machine.execPhaseIdle s
  | .phaseResolve => Sys2Proof.Machine.execPhaseResolve s
  | .phaseValidate => Sys2Proof.Machine.execPhaseValidate s
  | .phasePoll => Sys2Proof.Machine.execPhasePoll s
  | .phaseGuardAcq => Sys2Proof.Machine.execPhaseGuardAcq s
  | .phasePwrClr => Sys2Proof.Machine.execPhasePwrClr s
  | .phaseModeSel => Sys2Proof.Machine.execPhaseModeSel s
  | .phaseDsWrite => Sys2Proof.Machine.execPhaseDsWrite s
  | .phaseXckDir => Sys2Proof.Machine.execPhaseXckDir s
  | .phaseDivHi => Sys2Proof.Machine.execPhaseDivHi s
  | .phaseDivLo => Sys2Proof.Machine.execPhaseDivLo s
  | .phaseFrmSizeLo => Sys2Proof.Machine.execPhaseFrmSizeLo s
  | .phaseFrmSizeHi => Sys2Proof.Machine.execPhaseFrmSizeHi s
  | .phaseFrmParity => Sys2Proof.Machine.execPhaseFrmParity s
  | .phaseFrmStop => Sys2Proof.Machine.execPhaseFrmStop s
  | .phaseGuardRel => Sys2Proof.Machine.execPhaseGuardRel s

end Sys2Proof.Machine
end

