-- ==== Sys2Proof/Machine/Agents.lean ====
section
/-! DEFINITION. The agents' steps: SEQ, MAIN, ISR and LINE (00_scope.md R9 to R12), MAIN's duties (60_exceptions.md R112) and the reset input (70_reset_and_hazards.md R124). -/

namespace Sys2Proof.Machine

/-- What becomes of a value the decoder refuses: a command word is rejected (30_encoding.md R60, 40 R72); an address
wider than the bus is no transaction (log 18). -/
def undecoded (e : DecodeError) (s : State) : Host.Outcome State Fault Refusal :=
  match e with
  | .noSuchCommand _ => .next s.refuseWord
  | .reservedNonZero => .next s.refuseWord
  | .addressTooWide => .refused .addressTooWide

/-- A value arrives at an interface: it is decoded and executed. -/
def runWord (p : PortWord) (s : State) : Host.Outcome State Fault Refusal :=
  match decode s.cfg.addrW p with
  | .ok i => exec i s
  | .error e => undecoded e s

/-- SEQ's step: the rule of the phase in PHASE (00_scope.md R10, 41 R81). In IDLE it has none and passes (R82; log 2). -/
def seqStep (s : State) : Host.Outcome State Fault Refusal := runWord (.phase4 s.phase.code) s

/-- The host agent has this step enabled: MAIN always; ISR when IE = 1, and it never writes IE (00_scope.md R11). -/
def State.hostEnabled (s : State) (a : HostAgent) (act : HostAct) : Bool :=
  match a with
  | .main => true
  | .isr =>
    match act with
    | .ieWrite _ => false
    | .cmdWrite _ => s.ie
    | .cmdRead => s.ie
    | .bus _ _ _ => s.ie
    | .prWrite _ _ => s.ie
    | .dirWrite _ _ => s.ie

/-- A write of PR[id] breaks duty (c): it is the busy unit's register (60 R112). -/
def State.breaksPrDuty (s : State) (id : Nat) : Bool :=
  s.dutyBound && (match resolve s.cfg s.lat.unit.toNat with | some d => d.prId == id | none => false)

/-- A direction write breaks duty (d): it is the busy unit's clock pin (60 R112). -/
def State.breaksXckDuty (s : State) (pin : Nat) : Bool :=
  s.dutyBound && (match resolve s.cfg s.lat.unit.toNat with | some d => d.xckPin == pin | none => false)

/-- A host write of a power-reduction register (00_scope.md R11, 20_memory.md R43, 60 R112). A register no unit is
gated by is not state of the spec (10_state.md R25): writing it has no modelled effect (log 20). -/
def State.hostPrWrite (s : State) (id : Nat) (v : Byte) : State :=
  if s.breaksPrDuty id = true then s.raise (.hostHazard .prWrite)
  else if prNamed s.cfg id = true then s.prWrite id v
  else s

/-- A host write of a GPIO direction (00_scope.md R11, 60 R112). A pin the table does not name is not state of the
spec (10_state.md R26; log 20). -/
def State.hostDirWrite (s : State) (pin : Nat) (d : Dir) : State :=
  if s.breaksXckDuty pin = true then s.raise (.hostHazard .xckWrite)
  else if pinNamed s.cfg pin = true then s.setDirection pin d
  else s

/-- A write of IE: MAIN must not while a command runs (60 R112 (b)). -/
def State.hostIeWrite (s : State) (b : Bool) : State :=
  if s.dutyBound = true then s.raise (.hostHazard .ieWrite) else s.enableInterrupts b

/-- A step of MAIN or ISR, taken (00_scope.md R11). -/
def hostAct (act : HostAct) (s : State) : Host.Outcome State Fault Refusal :=
  match act with
  | .cmdWrite w => runWord (.cmd64 w) s
  | .cmdRead => runWord .cmdRd s
  | .bus we addr data => runWord (.bustx we addr data) s
  | .prWrite id v => .next (s.hostPrWrite id v)
  | .dirWrite pin d => .next (s.hostDirWrite pin d)
  | .ieWrite b => .next (s.hostIeWrite b)

/-- A turn of MAIN or ISR: an agent with no enabled step passes (log 2). -/
def hostStep (a : HostAgent) (act : HostAct) (s : State) : Host.Outcome State Fault Refusal :=
  if s.hostEnabled a act = true then hostAct act { s with agent := a } else .next s

/-- A turn of LINE (00_scope.md R12); a unit that does not exist has no flags. -/
def lineStep (u : Nat) (tc rip : Bool) (s : State) : State :=
  match resolve s.cfg u with
  | some d => s.lineWrite u d tc rip
  | none => s

/-- One turn of the interleaving. -/
def takeTurn (t : Turn) (s : State) : Host.Outcome State Fault Refusal :=
  match t with
  | .seq => seqStep s
  | .host a act => hostStep a act s
  | .line u tc rip => .next (lineStep u tc rip s)
  | .reset => .next s.resetInput

/-- The next turn of the schedule; SEQ's when none is left (00_scope.md R10; log 1, 26). -/
def nextTurn (s : State) : Host.Outcome State Fault Refusal :=
  match s.sched with
  | [] => seqStep s
  | t :: rest => takeTurn t { s with sched := rest }

end Sys2Proof.Machine
end

