-- ==== Sys2Proof/Machine/Step.lean ====
section
/-! DEFINITION. step: one agent's step of a machine whose parameter set is valid, and where a word is placed so that the next step runs it. -/

namespace Sys2Proof.Machine

/-- One step (00_scope.md R9). An invalid parameter set is refused as a whole: no machine exists for it (R7, 60 R111). -/
def step (s : State) : Host.Outcome State Fault Refusal :=
  if paramsValid s.cfg = true then nextTurn s else .refused .badConfiguration

/-- The value stands where the next step takes it: a phase code in PHASE with SEQ to move, a port value in MAIN's
next turn (log 19). -/
def State.withPortWord (s : State) : PortWord → State
  | .cmd64 w => { s with sched := .host .main (.cmdWrite w) :: s.sched }
  | .cmdRd => { s with sched := .host .main .cmdRead :: s.sched }
  | .bustx we addr data => { s with sched := .host .main (.bus we addr data) :: s.sched }
  | .phase4 c => { s with phase := Phase.ofCode c, sched := .seq :: s.sched }

/-- The word, numbered as the opcode table numbers it, where the next step takes it. -/
def State.withFetchWord (s : State) (nbits w : Nat) : State :=
  match PortWord.ofTable nbits w with
  | some p => s.withPortWord p
  | none => s

end Sys2Proof.Machine
end

