-- ==== Sys2Proof/Safety.lean ====
section
/-! DEFINITION. What a safe run is, and the terms the claims use: the good final states of 60_exceptions.md R109 and 70 R126, what a field write changes and leaves alone, and the invariants every step keeps. -/

namespace Sys2Proof.Machine

/-- No model fault has been recorded (60_exceptions.md R109). -/
def State.Clean (s : State) : Prop := s.faults = []

/-- A run is at its end: PHASE = IDLE, and the host has no further step to take (70_reset_and_hazards.md R126): no turn of
MAIN is left, and none of ISR that is enabled (00_scope.md R11). LINE may always step (R12), so its turns do not count. -/
def State.RunEnded (s : State) : Prop :=
  s.phase = .idle ∧ ∀ a act, Turn.host a act ∈ s.sched → s.hostEnabled a act = false

/-- The end of a run that is good: the run is at its end, and FAULTS is empty (60 R109, 70 R126). -/
def State.GoodFinal (s : State) : Prop := s.RunEnded ∧ s.Clean

/-- The code of PHASE as a number (30_encoding.md R62). -/
def State.phaseNum (s : State) : Nat := s.phase.code.toNat

/-- PHASE is one of PWR_CLR to GUARD_REL: the guard is acquired and not yet released (20_memory.md R52). -/
def State.Guarded (s : State) : Prop := 5 ≤ s.phaseNum

/-- The running command is past phase `p`: PHASE has a greater code. Every path of 41_sequencer.md R81 visits
rising codes. -/
def State.Past (s : State) (p : Phase) : Prop := p.code.toNat < s.phaseNum

/-- `t` is `s` after a FieldWrite of `v` to field `f` of unit `u` and the move to phase `p`, and nothing else is
different: no other field of State, no other unit, no other register of the unit, no other bit of the register; a
gated unit keeps all (20_memory.md R43, R46). -/
def FieldWritten (s t : State) (u : Nat) (f : RegField) (v : BitVec f.width) (p : Phase) : Prop :=
  t = { s with phase := p, units := t.units } ∧
  (∀ w, w ≠ u → t.regsOf w = s.regsOf w) ∧
  (s.gated u = true → t.regsOf u = s.regsOf u) ∧
  (s.gated u = false →
    (∀ r, r ≠ f.reg → (t.regsOf u).get r = (s.regsOf u).get r) ∧
    ∀ i, i < 8 → ((t.regsOf u).get f.reg).getLsbD i =
      if f.lo ≤ i ∧ i < f.lo + f.width then v.getLsbD (i - f.lo) else ((s.regsOf u).get f.reg).getLsbD i)

/-- FAULTS has gained `f` and nothing else is different (60_exceptions.md R109). -/
def FaultRaised (s t : State) (f : ModelFault) : Prop :=
  t = { s with faults := t.faults } ∧ ∀ g, g ∈ t.faults ↔ g ∈ s.faults ∨ g = f

/-- `t` is `s` after finish(c): RESULT, DONE and PHASE have changed and nothing else (41_sequencer.md R83), but for LAT, DIVQ,
PRIOR and PCNT, which hold draws from then on, any values (10_state.md R29; 93_implementation_defined.md U20), and the counter
those draws are taken from. -/
def Finished (s t : State) (c : ResultCode) : Prop :=
  t = { s with
    result := c, done := true, phase := .idle, lat := t.lat, divq := t.divq, prior := t.prior, pcnt := t.pcnt, draws := t.draws }

/-- The stores have their canonical form and FAULTS has no repeats. -/
def State.Canonical (s : State) : Prop :=
  Store.Wf UnitRegs.unlisted s.units ∧ Store.Wf prUnlisted s.pr ∧ Store.Wf dirUnlisted s.dir ∧ s.faults.Nodup

/-- PCNT is in the range 10_state.md R32 gives it; POLL is entered with reads left. -/
def State.PollInRange (s : State) : Prop :=
  match s.cfg.maxPoll with
  | .unbounded => s.pcnt = 0
  | .bounded n => s.pcnt ≤ n ∧ (s.phase = .poll → s.pcnt < n)

/-- What the sequencer's latches and IE meet in each phase: 30 R59 (e) and 40 R79 for LAT, 42 R98 to R100 for the
mode, 10 R32 for PCNT, 41 R84 for DIVQ, 20 R52 for IE. -/
def State.SeqInv (s : State) : Prop :=
  (s.phase ≠ .idle → s.lat.baud ≠ 0#32) ∧
  (s.Past .resolve → s.lat.unit.toNat < s.cfg.nUnits) ∧
  (s.phase = .xckDir → s.lat.mode = .ms ∨ s.lat.mode = .ss) ∧
  (s.phase = .divHi ∨ s.phase = .divLo → s.lat.mode ≠ .ss) ∧
  s.PollInRange ∧
  (s.Past .validate → ∀ m, multiplier s.lat.mode = some m → divisor s.cfg.fOsc m s.lat.baud.toNat = some s.divq) ∧
  (s.Guarded → s.ie = false)

/-- While the guard is held, what the phases that are over have written still stands: the unit is powered and each
field has the value of 42_mode_clock.md R92 and 43_frame.md R101. At GUARD_REL this is all of 40 R74 (b) to (d). -/
def State.Configured (s : State) : Prop :=
  ∀ d, resolve s.cfg s.lat.unit.toNat = some d →
    (s.Past .pwrClr → s.gated s.lat.unit.toNat = false) ∧
    (s.Past .modeSel → fieldOf (s.regsOf s.lat.unit.toNat).ctrla d.posMODE.val 2 = modeCode s.lat.mode) ∧
    (s.Past .dsWrite → fieldOf (s.regsOf s.lat.unit.toNat).status d.posDS.val 1 = dsCode s.lat.mode) ∧
    (s.Past .xckDir → ∀ x, xckDirection s.lat.mode = some x → s.dirOf d.xckPin = x) ∧
    (s.Past .divHi → s.lat.mode ≠ .ss → (s.regsOf s.lat.unit.toNat).divh = s.divq.extractLsb' 8 4) ∧
    (s.Past .divLo → s.lat.mode ≠ .ss → (s.regsOf s.lat.unit.toNat).divl = s.divq.extractLsb' 0 8) ∧
    (s.Past .frmSizeLo → fieldOf (s.regsOf s.lat.unit.toNat).ctrla d.posSZLO.val 2 = szlo s.lat.size) ∧
    (s.Past .frmSizeHi → fieldOf (s.regsOf s.lat.unit.toNat).ctrlb d.posSZHI.val 1 = szhi s.lat.size) ∧
    (s.Past .frmParity → fieldOf (s.regsOf s.lat.unit.toNat).ctrla d.posPAR.val 2 = parCode s.lat.parity) ∧
    (s.Past .frmStop → fieldOf (s.regsOf s.lat.unit.toNat).ctrla d.posSTOP.val 1 = stopCode s.lat.stop)

end Sys2Proof.Machine
end

