-- ==== Sys2Proof/Certificates/Slice0/Obligations.lean ====
section
/-! DEFINITION. The statements for the provers, family by family, with the terms they share. -/

open Sys2Proof Sys2Proof.Machine

/-! ## Terms of the statements, written from the spec's tables -/

namespace Sys2Proof.Claims

/-- A legal command word (30_encoding.md R59 (a) to (e)). -/
def LegalWord (w : CmdWord) : Prop :=
  w.extractLsb' 28 4 = 0b0001#4 ∧ w.extractLsb' 0 15 = 0#15 ∧ 5 ≤ (w.extractLsb' 17 4).toNat ∧ (w.extractLsb' 17 4).toNat ≤ 9 ∧
    w.extractLsb' 15 2 ≠ 0b11#2 ∧ w.extractLsb' 32 32 ≠ 0#32

/-- A size has this number of data bits (00_scope.md R14). -/
def sizeNum : Size → Nat
  | .five => 5
  | .six => 6
  | .seven => 7
  | .eight => 8
  | .nine => 9

/-- The operands R58 of 30_encoding.md assembles from the raw fields of a legal word. -/
def Operands (l : Latch) (unit : BitVec 4) (mode : Mode) (stop : Stop) (size : BitVec 4) (par : BitVec 2) (baud : BitVec 32) : Prop :=
  l.unit = unit ∧ l.mode = mode ∧ l.stop = stop ∧ sizeNum l.size = size.toNat ∧
    (l.parity = .none ↔ par = 0b00#2) ∧ (l.parity = .even ↔ par = 0b01#2) ∧ (l.parity = .odd ↔ par = 0b10#2) ∧ l.baud = baud

/-- The Mode of w[23:22] (30_encoding.md R57, R58). -/
def modeOf (b : BitVec 2) : Mode := if b = 0b00#2 then .na else if b = 0b01#2 then .da else if b = 0b10#2 then .ms else .ss

/-- The Stop of w[21] (30_encoding.md R57, R58). -/
def stopOf (b : BitVec 1) : Stop := if b = 1#1 then .two else .one

/-- m of 42_mode_clock.md R92 for the modes whose divisor is programmed. -/
def Mult (mode : Mode) (m : Nat) : Prop := (mode = .na ∧ m = 16) ∨ (mode = .da ∧ m = 8) ∨ (mode = .ms ∧ m = 2)

/-- The 3-bit data-size code (30_encoding.md R64). -/
def sizeBits : Size → BitVec 3
  | .five => 0b000#3
  | .six => 0b001#3
  | .seven => 0b010#3
  | .eight => 0b011#3
  | .nine => 0b111#3

/-- The parity code (30_encoding.md R65). -/
def parityBits : Parity → BitVec 2
  | .none => 0b00#2
  | .even => 0b10#2
  | .odd => 0b11#2

/-- The table of 43_frame.md R102: size, parity, stop, SZHI, SZLO, PAR, STOP. -/
def frameTable : List (Size × Parity × Stop × BitVec 1 × BitVec 2 × BitVec 2 × BitVec 1) :=
  [(.five, .none, .one, 0, 0b00, 0b00, 0), (.five, .none, .two, 0, 0b00, 0b00, 1), (.five, .even, .one, 0, 0b00, 0b10, 0),
   (.five, .even, .two, 0, 0b00, 0b10, 1), (.five, .odd, .one, 0, 0b00, 0b11, 0), (.five, .odd, .two, 0, 0b00, 0b11, 1)] ++
  [(.six, .none, .one, 0, 0b01, 0b00, 0), (.six, .none, .two, 0, 0b01, 0b00, 1), (.six, .even, .one, 0, 0b01, 0b10, 0),
   (.six, .even, .two, 0, 0b01, 0b10, 1), (.six, .odd, .one, 0, 0b01, 0b11, 0), (.six, .odd, .two, 0, 0b01, 0b11, 1)] ++
  [(.seven, .none, .one, 0, 0b10, 0b00, 0), (.seven, .none, .two, 0, 0b10, 0b00, 1), (.seven, .even, .one, 0, 0b10, 0b10, 0),
   (.seven, .even, .two, 0, 0b10, 0b10, 1), (.seven, .odd, .one, 0, 0b10, 0b11, 0), (.seven, .odd, .two, 0, 0b10, 0b11, 1)] ++
  [(.eight, .none, .one, 0, 0b11, 0b00, 0), (.eight, .none, .two, 0, 0b11, 0b00, 1), (.eight, .even, .one, 0, 0b11, 0b10, 0),
   (.eight, .even, .two, 0, 0b11, 0b10, 1), (.eight, .odd, .one, 0, 0b11, 0b11, 0), (.eight, .odd, .two, 0, 0b11, 0b11, 1)] ++
  [(.nine, .none, .one, 1, 0b11, 0b00, 0), (.nine, .none, .two, 1, 0b11, 0b00, 1), (.nine, .even, .one, 1, 0b11, 0b10, 0),
   (.nine, .even, .two, 1, 0b11, 0b10, 1), (.nine, .odd, .one, 1, 0b11, 0b11, 0), (.nine, .odd, .two, 1, 0b11, 0b11, 1)]

/-- The next phases of 41_sequencer.md R81, finish setting IDLE. -/
def nextPhases (p : Phase) (mode : Mode) : List Phase :=
  match p with
  | .idle => [.idle]
  | .resolve => [.validate, .idle]
  | .validate => [.poll, .idle]
  | .poll => [.guardAcq, .poll, .idle]
  | .guardAcq => [.pwrClr]
  | .pwrClr => [.modeSel]
  | .modeSel => [.dsWrite]
  | .dsWrite => if mode = .ms ∨ mode = .ss then [.xckDir] else [.divHi]
  | .xckDir => if mode = .ms then [.divHi] else [.frmSizeLo]
  | .divHi => [.divLo]
  | .divLo => [.frmSizeLo]
  | .frmSizeLo => [.frmSizeHi]
  | .frmSizeHi => [.frmParity]
  | .frmParity => [.frmStop]
  | .frmStop => [.guardRel]
  | .guardRel => [.idle]

/-- The four fields of the Frame Configurator (43_frame.md R103). -/
def frameFields (d : UnitDesc) : List RegField :=
  [⟨.ctrla, d.posSZLO.val, 2⟩, ⟨.ctrlb, d.posSZHI.val, 1⟩, ⟨.ctrla, d.posPAR.val, 2⟩, ⟨.ctrla, d.posSTOP.val, 1⟩]

/-- 40_command_port.md R74 (b), (c) and (d): unit `u` with record `d` is powered, clocked and framed as the command
`l` asked, in state `t`. -/
def UnitConfigured (t : State) (u : Nat) (d : UnitDesc) (l : Latch) : Prop :=
  (t.prOf d.prId).getLsbD d.prBit.val = false ∧
  (t.regsOf u).ctrla.extractLsb' d.posMODE.val 2 = (if l.mode = .na ∨ l.mode = .da then 0b00#2 else 0b01#2) ∧
  (t.regsOf u).status.getLsbD d.posDS.val = decide (l.mode = .da) ∧
  (l.mode = .ms → t.dirOf d.xckPin = .output) ∧
  (l.mode = .ss → t.dirOf d.xckPin = .input) ∧
  (∀ m, Mult l.mode m → (t.regsOf u).divh.toNat * 256 + (t.regsOf u).divl.toNat + 1 = t.cfg.fOsc / (m * l.baud.toNat)) ∧
  (t.regsOf u).ctrla.extractLsb' d.posSZLO.val 2 = (sizeBits l.size).extractLsb' 0 2 ∧
  (t.regsOf u).ctrlb.getLsbD d.posSZHI.val = (sizeBits l.size).getLsbD 2 ∧
  (t.regsOf u).ctrla.extractLsb' d.posPAR.val 2 = parityBits l.parity ∧
  (t.regsOf u).ctrla.getLsbD d.posSTOP.val = decide (l.stop = .two)

/-- The SEQ steps from GUARD_ACQ to GUARD_REL (41 R81; 90_conflicts.md C14). -/
def guardSteps : Mode → Nat
  | .na => 11
  | .da => 11
  | .ms => 12
  | .ss => 10

end Sys2Proof.Claims

open Sys2Proof.Claims

/-! ## Encoding -/

/-- R57, R61, R62: no bit of an encoding is dropped. -/
def Obligations.DecodeInvertsEncode : Prop :=
  ∀ (addrW : Nat) (i : Instr), i.wf addrW = true → decode addrW (encode i) = .ok i

/-- R56, R57, R61, R62: a value has one meaning; only the ignored DATA of a read is not kept. -/
def Obligations.EncodeInvertsDecode : Prop :=
  ∀ (addrW : Nat) (p : PortWord) (i : Instr), decode addrW p = .ok i →
    encode i = p ∨ ∃ a v, p = .bustx false a v ∧ encode i = .bustx false a 0#8

/-- R57, R58, R60, and words E01, E03, E05, E14, E15 and B01, B05 of 95_test_vectors.md. -/
def Obligations.SampleWordsDecode : Prop :=
  decode 16 (.cmd64 0x0000258010100000#64) = .ok (.init 0#4 .na .one 8#4 0b00#2 9600#32) ∧
  decode 16 (.cmd64 0x0000258010AE8000#64) = .ok (.init 0#4 .ms .two 7#4 0b01#2 9600#32) ∧
  decode 16 (.cmd64 0x0001C20013130000#64) = .ok (.init 3#4 .na .one 9#4 0b10#2 115200#32) ∧
  decode 16 (.cmd64 0x0000258011D00000#64) = .ok (.init 1#4 .ss .one 8#4 0b00#2 9600#32) ∧
  decode 16 (.cmd64 0x0000258020100000#64) = .error (.noSuchCommand 0b0010#4) ∧
  decode 16 (.cmd64 0x0000258010100001#64) = .error .reservedNonZero ∧
  decode 16 .cmdRd = .ok .stat ∧
  decode 16 (.bustx true 0x00C5#32 0xF3#8) = .ok (.busWr 0x00C5#32 0xF3#8) ∧
  decode 16 (.bustx false 0x00C6#32 0x99#8) = .ok (.busRd 0x00C6#32)

/-- R62: the sixteen phase codes. -/
def Obligations.PhaseCodesDecode : Prop :=
  ∀ addrW : Nat,
    decode addrW (.phase4 0b0000#4) = .ok .phaseIdle ∧ decode addrW (.phase4 0b0001#4) = .ok .phaseResolve ∧
    decode addrW (.phase4 0b0010#4) = .ok .phaseValidate ∧ decode addrW (.phase4 0b0011#4) = .ok .phasePoll ∧
    decode addrW (.phase4 0b0100#4) = .ok .phaseGuardAcq ∧ decode addrW (.phase4 0b0101#4) = .ok .phasePwrClr ∧
    decode addrW (.phase4 0b0110#4) = .ok .phaseModeSel ∧ decode addrW (.phase4 0b0111#4) = .ok .phaseDsWrite ∧
    decode addrW (.phase4 0b1000#4) = .ok .phaseXckDir ∧ decode addrW (.phase4 0b1001#4) = .ok .phaseDivHi ∧
    decode addrW (.phase4 0b1010#4) = .ok .phaseDivLo ∧ decode addrW (.phase4 0b1011#4) = .ok .phaseFrmSizeLo ∧
    decode addrW (.phase4 0b1100#4) = .ok .phaseFrmSizeHi ∧ decode addrW (.phase4 0b1101#4) = .ok .phaseFrmParity ∧
    decode addrW (.phase4 0b1110#4) = .ok .phaseFrmStop ∧ decode addrW (.phase4 0b1111#4) = .ok .phaseGuardRel

/-! ## The command port -/

/-- R72, with R58, R59, R60 and R113 (2): a step in which MAIN, or ISR with IE = 1, writes any word to the command
port. BUSY comes before ILLEGAL_COMMAND, and a rejection changes SEQSTAT.REJECT only. -/
def Obligations.CommandWriteAcceptsOrRejects : Prop :=
  ∀ (s : State) (a : HostAgent) (w : CmdWord) (rest : List Turn), paramsValid s.cfg = true → a = .main ∨ s.ie = true →
    s.sched = .host a (.cmdWrite w) :: rest →
    (s.phase ≠ .idle → step s = .next { s with sched := rest, agent := a, reject := .busy }) ∧
    (s.phase = .idle → ¬ LegalWord w → step s = .next { s with sched := rest, agent := a, reject := .illegalCommand }) ∧
    (s.phase = .idle → LegalWord w → ∃ t, step s = .next t ∧
      t = { s with sched := rest, agent := a, lat := t.lat, done := false, reject := .none, phase := .resolve } ∧
      Operands t.lat (w.extractLsb' 24 4) (modeOf (w.extractLsb' 22 2)) (stopOf (w.extractLsb' 21 1)) (w.extractLsb' 17 4)
        (w.extractLsb' 15 2) (w.extractLsb' 32 32))

/-- R72, R59 (c), (d), (e), R113 (2): INIT on every operand: accepted, with what it latches and its frame, or rejected
with SEQSTAT.REJECT alone changed. -/
def Obligations.InitAcceptsOrRejects : Prop :=
  ∀ (s : State) (unit : BitVec 4) (mode : Mode) (stop : Stop) (size : BitVec 4) (par : BitVec 2) (baud : BitVec 32),
    (s.phase ≠ .idle → exec (.init unit mode stop size par baud) s = .next { s with reject := .busy }) ∧
    (s.phase = .idle → size.toNat < 5 ∨ 9 < size.toNat ∨ par = 0b11#2 ∨ baud = 0#32 →
      exec (.init unit mode stop size par baud) s = .next { s with reject := .illegalCommand }) ∧
    (s.phase = .idle → 5 ≤ size.toNat → size.toNat ≤ 9 → par ≠ 0b11#2 → baud ≠ 0#32 →
      ∃ t, exec (.init unit mode stop size par baud) s = .next t ∧
        t = { s with lat := t.lat, done := false, reject := .none, phase := .resolve } ∧
        Operands t.lat unit mode stop size par baud)

/-- R76, R33, R68, R69: STAT returns SEQSTAT and changes nothing else. -/
def Obligations.StatReturnsSeqstat : Prop :=
  ∀ s : State, ∃ t, exec .stat s = .next t ∧ t = { s with statOut := t.statOut } ∧
    t.statOut.getLsbD 0 = decide (s.phase ≠ .idle) ∧ t.statOut.getLsbD 1 = s.done ∧
    t.statOut.extractLsb' 2 3 =
      (match s.result with | .ok => 0b000#3 | .unsupportedDivisor => 0b001#3 | .invalidUnit => 0b010#3 | .timeout => 0b011#3) ∧
    t.statOut.extractLsb' 5 2 = (match s.reject with | .none => 0b00#2 | .busy => 0b01#2 | .illegalCommand => 0b10#2) ∧
    t.statOut.getLsbD 7 = false

/-! ## The register bus -/

/-- R41, R17 (a), (b): in a valid parameter set an address names at most one register, and every register has one. -/
def Obligations.AddressNamesOneRegister : Prop :=
  ∀ (p : Params) (a u : Nat) (r : Reg), paramsValid p = true →
    (locate p a = some (u, r) ↔ ∃ d, resolve p u = some d ∧ addressOf d r = a)

/-- R42, R77, R78, R113 (4): a transaction to an unmapped address records the fault and does nothing else, whoever
issues it. -/
def Obligations.UnmappedAccessFaults : Prop :=
  ∀ (s : State) (addr : BusAddr) (v : Byte),
    (∀ u d r, resolve s.cfg u = some d → addressOf d r ≠ addr.toNat) →
    (∃ t, exec (.busRd addr) s = .next t ∧ FaultRaised s t (.unmappedAccess addr)) ∧
    ∃ t, exec (.busWr addr v) s = .next t ∧ FaultRaised s t (.unmappedAccess addr)

/-- R112 (a), R77, R78: MAIN's access to the unit of the running command records HostHazard(UnitAccess) and does
nothing else. -/
def Obligations.BusyUnitAccessFaults : Prop :=
  ∀ (s : State) (addr : BusAddr) (v : Byte) (d : UnitDesc) (r : Reg),
    paramsValid s.cfg = true → resolve s.cfg s.lat.unit.toNat = some d → addr.toNat = addressOf d r →
    s.agent = .main → s.phase ≠ .idle →
    (∃ t, exec (.busRd addr) s = .next t ∧ FaultRaised s t (.hostHazard .unitAccess)) ∧
    ∃ t, exec (.busWr addr v) s = .next t ∧ FaultRaised s t (.hostHazard .unitAccess)

/-- R77, R44, R43: what BUS.RD returns and that it changes nothing else; a gated unit and DATA answer the free value
at the counter. -/
def Obligations.BusReadReturnsRegister : Prop :=
  ∀ (s : State) (addr : BusAddr) (u : Nat) (d : UnitDesc) (r : Reg),
    paramsValid s.cfg = true → resolve s.cfg u = some d → addr.toNat = addressOf d r →
    ¬(s.agent = .main ∧ s.phase ≠ .idle ∧ u = s.lat.unit.toNat) →
    ∃ t, exec (.busRd addr) s = .next t ∧
      (s.gated u = true ∨ r = .data → t = { s with busOut := Config.drawByte s.draws, draws := s.draws + 1 }) ∧
      (s.gated u = false → r ≠ .data → t = { s with busOut := t.busOut } ∧
        (r = .status → t.busOut = (s.regsOf u).status) ∧ (r = .ctrla → t.busOut = (s.regsOf u).ctrla) ∧
        (r = .ctrlb → t.busOut = (s.regsOf u).ctrlb) ∧ (r = .divl → t.busOut = (s.regsOf u).divl) ∧
        (r = .divh → t.busOut = 0b0000#4 ++ (s.regsOf u).divh))

/-- R78, R45, R43: what BUS.WR stores and its frame; a gated unit ignores it, DATA has no effect, TC and RIP become
free values in a STATUS write, both from one free byte (log 24). -/
def Obligations.BusWriteStoresRegister : Prop :=
  ∀ (s : State) (addr : BusAddr) (v : Byte) (u : Nat) (d : UnitDesc) (r : Reg),
    paramsValid s.cfg = true → resolve s.cfg u = some d → addr.toNat = addressOf d r →
    ¬(s.agent = .main ∧ s.phase ≠ .idle ∧ u = s.lat.unit.toNat) →
    ∃ t, exec (.busWr addr v) s = .next t ∧
      (s.gated u = true ∨ r = .data → t = s) ∧
      (s.gated u = false → r ≠ .data →
        t = { s with units := t.units, draws := if r = .status then s.draws + 1 else s.draws } ∧
        (∀ w, w ≠ u → t.regsOf w = s.regsOf w) ∧
        (∀ q, q ≠ r → (t.regsOf u).get q = (s.regsOf u).get q) ∧
        (r = .ctrla → (t.regsOf u).ctrla = v) ∧ (r = .ctrlb → (t.regsOf u).ctrlb = v) ∧ (r = .divl → (t.regsOf u).divl = v) ∧
        (r = .divh → (t.regsOf u).divh = v.extractLsb' 0 4) ∧
        (r = .status → ∀ i, i < 8 → (t.regsOf u).status.getLsbD i =
          if i = d.posTC.val ∨ i = d.posRIP.val then (Config.drawByte s.draws).getLsbD i else v.getLsbD i))

/-! ## The sequencer's control phases -/

/-- R82: IDLE has no effect. -/
def Obligations.IdleDoesNothing : Prop := ∀ s : State, exec .phaseIdle s = .next s

/-- R80, R83: RESOLVE. -/
def Obligations.ResolveChecksUnit : Prop :=
  ∀ s : State,
    (s.cfg.nUnits ≤ s.lat.unit.toNat → ∃ t, exec .phaseResolve s = .next t ∧ Finished s t .invalidUnit) ∧
    (s.lat.unit.toNat < s.cfg.nUnits → exec .phaseResolve s = .next { s with phase := .validate })

/-- R84, R93: VALIDATE for a latched command (R59 (e) makes its baud rate non-zero). -/
def Obligations.ValidateChecksDivisor : Prop :=
  ∀ s : State,
    (s.lat.mode = .ss → exec .phaseValidate s = .next { s with pcnt := 0, phase := .poll }) ∧
    (∀ m, Mult s.lat.mode m → s.lat.baud ≠ 0#32 →
      (s.cfg.fOsc / (m * s.lat.baud.toNat) = 0 ∨ 4096 < s.cfg.fOsc / (m * s.lat.baud.toNat) →
        ∃ t, exec .phaseValidate s = .next t ∧ Finished s t .unsupportedDivisor) ∧
      (1 ≤ s.cfg.fOsc / (m * s.lat.baud.toNat) → s.cfg.fOsc / (m * s.lat.baud.toNat) ≤ 4096 →
        ∃ t, exec .phaseValidate s = .next t ∧ t = { s with divq := t.divq, pcnt := 0, phase := .poll } ∧
          t.divq.toNat + 1 = s.cfg.fOsc / (m * s.lat.baud.toNat)))

/-- R95: the closed form of the range check. -/
def Obligations.DivisorClosedForm : Prop :=
  ∀ fOsc m baud : Nat, 0 < m * baud →
    (divisor fOsc m baud = none ↔ fOsc < m * baud ∨ 4097 * (m * baud) ≤ fOsc) ∧
    (divisor fOsc m baud = some 4095#12 ↔ 4096 * (m * baud) ≤ fOsc ∧ fOsc < 4097 * (m * baud)) ∧
    (divisor fOsc m baud = some 0#12 ↔ m * baud ≤ fOsc ∧ fOsc < 2 * (m * baud))

/-- R93, R94: the divisor is the exact floor less one, never wrapped or rounded. -/
def Obligations.DivisorIsExactFloor : Prop :=
  ∀ (fOsc m baud : Nat) (d : BitVec 12), 0 < m * baud →
    (divisor fOsc m baud = some d ↔ (d.toNat + 1) * (m * baud) ≤ fOsc ∧ fOsc < (d.toNat + 2) * (m * baud))

/-- R86, R85, R43: one POLL step, `b` the STATUS it reads: a free value from a gated unit. -/
def Obligations.PollReadsStatusOnce : Prop :=
  ∀ (s : State) (d : UnitDesc) (b : Byte) (k : Nat),
    resolve s.cfg s.lat.unit.toNat = some d →
    (s.gated s.lat.unit.toNat = true ∧ b = Config.drawByte s.draws ∧ k = s.draws + 1 ∨
      s.gated s.lat.unit.toNat = false ∧ b = (s.regsOf s.lat.unit.toNat).status ∧ k = s.draws) →
    (b.getLsbD d.posTC.val = true → b.getLsbD d.posRIP.val = false →
      exec .phasePoll s = .next { s with phase := .guardAcq, draws := k }) ∧
    (b.getLsbD d.posTC.val = false ∨ b.getLsbD d.posRIP.val = true →
      (s.cfg.maxPoll = .unbounded → exec .phasePoll s = .next { s with phase := .poll, draws := k }) ∧
      (∀ n, s.cfg.maxPoll = .bounded n →
        (s.pcnt + 1 = n → ∃ t, exec .phasePoll s = .next t ∧ Finished { s with draws := k } t .timeout) ∧
        (s.pcnt + 1 ≠ n → exec .phasePoll s = .next { s with pcnt := s.pcnt + 1, phase := .poll, draws := k })))

/-- R88: GUARD_ACQ. -/
def Obligations.GuardAcquireMasksInterrupts : Prop :=
  ∀ s : State, exec .phaseGuardAcq s = .next { s with prior := s.ie, ie := false, phase := .pwrClr }

/-- R89, R43, with R17 (f): PWR_CLR clears one bit of one register; the unit's registers are drawn when it was gated
and kept when it was not; every other unit keeps its registers. Which free values they are is the model's numbering (logs
25, 29). -/
def Obligations.PowerClearUngatesUnit : Prop :=
  ∀ (s : State) (d : UnitDesc), paramsValid s.cfg = true → resolve s.cfg s.lat.unit.toNat = some d →
    ∃ t, exec .phasePwrClr s = .next t ∧
      t = { s with phase := .modeSel, pr := t.pr, units := t.units, draws := t.draws } ∧
      (∀ id, id ≠ d.prId → t.prOf id = s.prOf id) ∧
      (∀ i, i < 8 → (t.prOf d.prId).getLsbD i = if i = d.prBit.val then false else (s.prOf d.prId).getLsbD i) ∧
      (∀ w, w ≠ s.lat.unit.toNat → t.regsOf w = s.regsOf w) ∧
      (s.gated s.lat.unit.toNat = true → t.regsOf s.lat.unit.toNat = UnitRegs.drawn (s.draws + 6 * s.lat.unit.toNat) ∧
        s.draws + 6 * s.lat.unit.toNat + 6 ≤ t.draws) ∧
      (s.gated s.lat.unit.toNat = false → t.regsOf s.lat.unit.toNat = s.regsOf s.lat.unit.toNat ∧ t.draws = s.draws)

/-- R90, R83: GUARD_REL. -/
def Obligations.GuardReleaseRestoresInterrupts : Prop :=
  ∀ s : State, ∃ t, exec .phaseGuardRel s = .next t ∧ Finished { s with ie := s.prior } t .ok

/-- R79 (log 14): a phase that needs the record of a unit that does not exist stops by name. -/
def Obligations.UnresolvedUnitStops : Prop :=
  ∀ s : State, s.cfg.nUnits ≤ s.lat.unit.toNat →
    exec .phasePoll s = .fault .unresolvedUnit ∧ exec .phasePwrClr s = .fault .unresolvedUnit ∧
    exec .phaseModeSel s = .fault .unresolvedUnit ∧ exec .phaseDsWrite s = .fault .unresolvedUnit ∧
    exec .phaseXckDir s = .fault .unresolvedUnit ∧ exec .phaseDivHi s = .fault .unresolvedUnit ∧
    exec .phaseDivLo s = .fault .unresolvedUnit ∧ exec .phaseFrmSizeLo s = .fault .unresolvedUnit ∧
    exec .phaseFrmSizeHi s = .fault .unresolvedUnit ∧ exec .phaseFrmParity s = .fault .unresolvedUnit ∧
    exec .phaseFrmStop s = .fault .unresolvedUnit

/-- R81: the phase transition function. XCK_DIR is entered in MS and SS only (R98). -/
def Obligations.PhasesFollowTransitionTable : Prop :=
  ∀ s t : State, (s.phase = .xckDir → s.lat.mode = .ms ∨ s.lat.mode = .ss) →
    exec s.phase.instr s = .next t → t.phase ∈ nextPhases s.phase s.lat.mode

/-- R75, R108, R114: the phases that report an error write no unit register, PR bit, direction or IE, whatever they
answer. While the command goes on LAT and PRIOR keep their values, and DIVQ but for VALIDATE; once it has finished the
four latches hold any values (R29, U20). -/
def Obligations.ErrorPhasesTouchNoRegister : Prop :=
  ∀ (s t : State) (i : Instr), i = .phaseResolve ∨ i = .phaseValidate ∨ i = .phasePoll → exec i s = .next t →
    t = { s with
      phase := t.phase, lat := t.lat, divq := t.divq, prior := t.prior, pcnt := t.pcnt, done := t.done, result := t.result, draws := t.draws } ∧
    (t.phase ≠ .idle → t.lat = s.lat ∧ t.prior = s.prior ∧ t.done = s.done ∧ t.result = s.result ∧ (i ≠ .phaseValidate → t.divq = s.divq))

/-! ## The Mode/Clock Configurator -/

/-- R96, R63: MODE_SEL writes CTRLA.MODE and nothing else. -/
def Obligations.ModeSelWritesClockSource : Prop :=
  ∀ (s : State) (d : UnitDesc), resolve s.cfg s.lat.unit.toNat = some d →
    ∃ t, exec .phaseModeSel s = .next t ∧
      FieldWritten s t s.lat.unit.toNat ⟨.ctrla, d.posMODE.val, 2⟩ (if s.lat.mode = .na ∨ s.lat.mode = .da then 0b00#2 else 0b01#2) .dsWrite

/-- R97, R67: DS_WRITE writes STATUS.DS and nothing else; TC and RIP are not written back. -/
def Obligations.DsWriteSetsDoubleSpeed : Prop :=
  ∀ (s : State) (d : UnitDesc), resolve s.cfg s.lat.unit.toNat = some d →
    ∃ t, exec .phaseDsWrite s = .next t ∧
      FieldWritten s t s.lat.unit.toNat ⟨.status, d.posDS.val, 1⟩ (if s.lat.mode = .da then 1#1 else 0#1)
        (if s.lat.mode = .ms ∨ s.lat.mode = .ss then .xckDir else .divHi)

/-- R98: XCK_DIR drives the clock pin in MS, releases it in SS, and writes nothing else. -/
def Obligations.XckDirDrivesClockLine : Prop :=
  ∀ (s : State) (d : UnitDesc), resolve s.cfg s.lat.unit.toNat = some d →
    (s.lat.mode = .ms → ∃ t, exec .phaseXckDir s = .next t ∧ t = { s with phase := .divHi, dir := t.dir } ∧
      ∀ p, t.dirOf p = if p = d.xckPin then .output else s.dirOf p) ∧
    (s.lat.mode = .ss → ∃ t, exec .phaseXckDir s = .next t ∧ t = { s with phase := .frmSizeLo, dir := t.dir } ∧
      ∀ p, t.dirOf p = if p = d.xckPin then .input else s.dirOf p)

/-- The model's choice (log 15), from R98's pseudocode: in NA and DA, where no run reaches XCK_DIR, nothing changes. -/
def Obligations.XckDirIdleInAsyncModes : Prop :=
  ∀ (s : State) (d : UnitDesc), resolve s.cfg s.lat.unit.toNat = some d → s.lat.mode = .na ∨ s.lat.mode = .da →
    exec .phaseXckDir s = .next s

/-- R99, R100, R22: DIV_HI writes DIVH[3:0], DIV_LO writes DIVL, and nothing else. -/
def Obligations.DivisorHalvesWritten : Prop :=
  ∀ (s : State) (d : UnitDesc), resolve s.cfg s.lat.unit.toNat = some d →
    (∃ t, exec .phaseDivHi s = .next t ∧ FieldWritten s t s.lat.unit.toNat ⟨.divh, 0, 4⟩ (s.divq.extractLsb' 8 4) .divLo) ∧
    ∃ t, exec .phaseDivLo s = .next t ∧ FieldWritten s t s.lat.unit.toNat ⟨.divl, 0, 8⟩ (s.divq.extractLsb' 0 8) .frmSizeLo

/-! ## The Frame Configurator -/

/-- R104, R105, R64: FRM_SIZE_LO writes CTRLA.SZLO, FRM_SIZE_HI writes CTRLB.SZHI, and nothing else. -/
def Obligations.FrameSizeWritten : Prop :=
  ∀ (s : State) (d : UnitDesc), resolve s.cfg s.lat.unit.toNat = some d →
    (∃ t, exec .phaseFrmSizeLo s = .next t ∧
      FieldWritten s t s.lat.unit.toNat ⟨.ctrla, d.posSZLO.val, 2⟩ ((sizeBits s.lat.size).extractLsb' 0 2) .frmSizeHi) ∧
    ∃ t, exec .phaseFrmSizeHi s = .next t ∧
      FieldWritten s t s.lat.unit.toNat ⟨.ctrlb, d.posSZHI.val, 1⟩ (if s.lat.size = .nine then 1#1 else 0#1) .frmParity

/-- R106, R107, R65, R66: FRM_PARITY writes CTRLA.PAR, FRM_STOP writes CTRLA.STOP, and nothing else. -/
def Obligations.FrameParityAndStopWritten : Prop :=
  ∀ (s : State) (d : UnitDesc), resolve s.cfg s.lat.unit.toNat = some d →
    (∃ t, exec .phaseFrmParity s = .next t ∧
      FieldWritten s t s.lat.unit.toNat ⟨.ctrla, d.posPAR.val, 2⟩ (parityBits s.lat.parity) .frmStop) ∧
    ∃ t, exec .phaseFrmStop s = .next t ∧
      FieldWritten s t s.lat.unit.toNat ⟨.ctrla, d.posSTOP.val, 1⟩ (if s.lat.stop = .two then 1#1 else 0#1) .guardRel

/-- R102, R101: the frame encoder is the table of 30 rows. -/
def Obligations.FrameEncoderMatchesTable : Prop :=
  (∀ x ∈ frameTable, frame x.1 x.2.1 x.2.2.1 = x.2.2.2) ∧
  ∀ z q st, ∃ x ∈ frameTable, x.1 = z ∧ x.2.1 = q ∧ x.2.2.1 = st

/-- R103, with R17 (d): two different frame writes leave the same registers in either order. -/
def Obligations.FrameWritesCommute : Prop :=
  ∀ (s : State) (u addrW : Nat) (d : UnitDesc) (f g : RegField) (a : BitVec f.width) (b : BitVec g.width),
    unitValid addrW d = true → f ∈ frameFields d → g ∈ frameFields d → f ≠ g →
    ∀ w, ((s.fieldWrite u f a).fieldWrite u g b).regsOf w = ((s.fieldWrite u g b).fieldWrite u f a).regsOf w

/-! ## Agents -/

/-- R10, R72, R76, R77, R78: a step runs the instruction the decoder reads, of SEQ or of the host agent whose turn it
is; what step adds is to take the turn off the schedule and, for a host step, to note the agent (log 1, 8). -/
def Obligations.StepRunsDecodedInstruction : Prop :=
  ∀ (s : State) (i : Instr) (rest : List Turn) (a : HostAgent), paramsValid s.cfg = true →
    (s.sched = [] → decode s.cfg.addrW (.phase4 s.phase.code) = .ok i → step s = exec i s) ∧
    (s.sched = .seq :: rest → decode s.cfg.addrW (.phase4 s.phase.code) = .ok i → step s = exec i { s with sched := rest }) ∧
    (a = .main ∨ s.ie = true →
      (∀ w, s.sched = .host a (.cmdWrite w) :: rest → decode s.cfg.addrW (.cmd64 w) = .ok i →
        step s = exec i { s with sched := rest, agent := a }) ∧
      (s.sched = .host a .cmdRead :: rest → decode s.cfg.addrW .cmdRd = .ok i →
        step s = exec i { s with sched := rest, agent := a }) ∧
      (∀ we addr v, s.sched = .host a (.bus we addr v) :: rest → decode s.cfg.addrW (.bustx we addr v) = .ok i →
        step s = exec i { s with sched := rest, agent := a }))

/-- R11, R117: ISR has no step while IE = 0, and never writes IE; its turn passes (log 2). -/
def Obligations.IsrTurnPassesWhenMasked : Prop :=
  ∀ (s : State) (act : HostAct) (rest : List Turn), paramsValid s.cfg = true → s.sched = .host .isr act :: rest →
    s.ie = false ∨ (∃ b, act = .ieWrite b) → step s = .next { s with sched := rest }

/-- R52: while the guard is held no interrupt handler takes a step. -/
def Obligations.NoHandlerStepUnderGuard : Prop :=
  ∀ (s : State) (act : HostAct) (rest : List Turn), paramsValid s.cfg = true → s.SeqInv → s.Guarded →
    s.sched = .host .isr act :: rest → step s = .next { s with sched := rest }

/-- R12: LINE sets TC and RIP of one unit and writes nothing else. -/
def Obligations.LineSetsTransferFlags : Prop :=
  ∀ (s : State) (u : Nat) (tc rip : Bool) (rest : List Turn) (d : UnitDesc),
    paramsValid s.cfg = true → s.sched = .line u tc rip :: rest → resolve s.cfg u = some d →
    ∃ t, step s = .next t ∧ t = { s with sched := rest, units := t.units } ∧
      (∀ w, w ≠ u → t.regsOf w = s.regsOf w) ∧ (∀ q, q ≠ .status → (t.regsOf u).get q = (s.regsOf u).get q) ∧
      (t.regsOf u).status.getLsbD d.posTC.val = tc ∧ (t.regsOf u).status.getLsbD d.posRIP.val = rip ∧
      ∀ i, i < 8 → i ≠ d.posTC.val → i ≠ d.posRIP.val → (t.regsOf u).status.getLsbD i = (s.regsOf u).status.getLsbD i

/-- R112 (b), R24: MAIN's write of IE. -/
def Obligations.MainWritesInterruptEnable : Prop :=
  ∀ (s : State) (b : Bool) (rest : List Turn), paramsValid s.cfg = true → s.sched = .host .main (.ieWrite b) :: rest →
    (s.phase = .idle → step s = .next { s with sched := rest, agent := .main, ie := b }) ∧
    (s.phase ≠ .idle → ∃ t, step s = .next t ∧ FaultRaised { s with sched := rest, agent := .main } t (.hostHazard .ieWrite))

/-- R112 (c): MAIN's write of the busy unit's power-reduction register; (d): of its clock pin's direction. -/
def Obligations.BusyCollaboratorWritesFault : Prop :=
  ∀ (s : State) (d : UnitDesc) (rest : List Turn), paramsValid s.cfg = true → s.phase ≠ .idle →
    resolve s.cfg s.lat.unit.toNat = some d →
    (∀ v, s.sched = .host .main (.prWrite d.prId v) :: rest →
      ∃ t, step s = .next t ∧ FaultRaised { s with sched := rest, agent := .main } t (.hostHazard .prWrite)) ∧
    (∀ x, s.sched = .host .main (.dirWrite d.xckPin x) :: rest →
      ∃ t, step s = .next t ∧ FaultRaised { s with sched := rest, agent := .main } t (.hostHazard .xckWrite))

/-- R11, R43, R25: a host write of a power-reduction register: the byte is stored, every unit it ungates is drawn, and
nothing else changes. `ungated w` says that w's bit goes from 1 to 0. -/
def Obligations.HostPowerWriteUngates : Prop :=
  ∀ (s : State) (a : HostAgent) (id : Nat) (v : Byte) (rest : List Turn),
    paramsValid s.cfg = true → a = .main ∨ s.ie = true → s.sched = .host a (.prWrite id v) :: rest →
    (∃ u d, resolve s.cfg u = some d ∧ d.prId = id) →
    ¬(a = .main ∧ s.phase ≠ .idle ∧ ∃ d, resolve s.cfg s.lat.unit.toNat = some d ∧ d.prId = id) →
    ∃ t, step s = .next t ∧ t = { s with sched := rest, agent := a, pr := t.pr, units := t.units, draws := t.draws } ∧
      (∀ j, t.prOf j = if j = id then v else s.prOf j) ∧
      (∀ w d, resolve s.cfg w = some d →
        (d.prId = id ∧ (s.prOf id).getLsbD d.prBit.val = true ∧ v.getLsbD d.prBit.val = false →
          t.regsOf w = UnitRegs.drawn (s.draws + 6 * w) ∧ s.draws + 6 * w + 6 ≤ t.draws) ∧
        (¬(d.prId = id ∧ (s.prOf id).getLsbD d.prBit.val = true ∧ v.getLsbD d.prBit.val = false) → t.regsOf w = s.regsOf w)) ∧
      (∀ w, resolve s.cfg w = none → t.regsOf w = s.regsOf w)

/-- R11, R26: a host write of a direction: the pin's direction is stored and nothing else changes. -/
def Obligations.HostDirectionWriteStores : Prop :=
  ∀ (s : State) (a : HostAgent) (p : Nat) (x : Dir) (rest : List Turn),
    paramsValid s.cfg = true → a = .main ∨ s.ie = true → s.sched = .host a (.dirWrite p x) :: rest →
    (∃ u d, resolve s.cfg u = some d ∧ (d.xckPin = p ∨ d.txdPin = p ∨ d.rxdPin = p)) →
    ¬(a = .main ∧ s.phase ≠ .idle ∧ ∃ d, resolve s.cfg s.lat.unit.toNat = some d ∧ d.xckPin = p) →
    ∃ t, step s = .next t ∧ t = { s with sched := rest, agent := a, dir := t.dir } ∧
      ∀ q, t.dirOf q = if q = p then x else s.dirOf q

/-- R112: a turn of MAIN while a command runs leaves the unit being configured, IE, its power-reduction register, its
clock pin, PHASE and LAT as they were. -/
def Obligations.MainCannotDisturbCommand : Prop :=
  ∀ (s t : State) (act : HostAct) (rest : List Turn) (d : UnitDesc),
    s.sched = .host .main act :: rest → s.phase ≠ .idle → resolve s.cfg s.lat.unit.toNat = some d → step s = .next t →
    t.regsOf s.lat.unit.toNat = s.regsOf s.lat.unit.toNat ∧ t.ie = s.ie ∧ t.prOf d.prId = s.prOf d.prId ∧
      t.dirOf d.xckPin = s.dirOf d.xckPin ∧ t.phase = s.phase ∧ t.lat = s.lat

/-! ## Reset and parameters -/

/-- R38: reset, for every parameter set: PHASE, SEQSTAT, FAULTS and IE have their values, and every other piece of state
holds whatever `x` gives it, `x` being any values of what R38 leaves a draw. -/
def Obligations.ResetLeavesIdle : Prop :=
  ∀ (c : Params) (x : Undetermined),
    (State.resetWith c x).phase = .idle ∧ (State.resetWith c x).seqstat = 0x00#8 ∧ (State.resetWith c x).ie = false ∧
      (State.resetWith c x).faults = [] ∧ (State.resetWith c x).cfg = c ∧ (State.resetWith c x).lat = x.lat ∧
      (State.resetWith c x).divq = x.divq ∧ (State.resetWith c x).prior = x.prior ∧ (State.resetWith c x).pcnt = x.pcnt ∧
      (State.resetWith c x).units = x.units ∧ (State.resetWith c x).pr = x.pr ∧ (State.resetWith c x).dir = x.dir

/-- The model's choice (logs 4, 5 and 6): what State.reset holds where R38 leaves a draw; and the reference parameters
meet R17, as 93_implementation_defined.md section 3 says. -/
def Obligations.NamedResetValues : Prop :=
  State.reset.cfg = Config.reference ∧ paramsValid Config.reference = true ∧
  (∀ u, State.reset.regsOf u = ⟨0x20#8, 0x06#8, 0x00#8, 0x00#8, 0#4, 0x00#8⟩) ∧
  (∀ id, State.reset.prOf id = 0x00#8) ∧ (∀ p, State.reset.dirOf p = .input) ∧
  State.reset.lat = ⟨0#4, .na, .one, .five, .none, 1#32⟩ ∧ State.reset.divq = 0#12 ∧ State.reset.prior = false ∧
  State.reset.pcnt = 0

/-- R124, R38: the reset input abandons the running command; every unit register is a draw. -/
def Obligations.ResetInputAbandonsCommand : Prop :=
  ∀ (s : State) (rest : List Turn), paramsValid s.cfg = true → s.sched = .reset :: rest →
    ∃ t, step s = .next t ∧ t.phase = .idle ∧ t.seqstat = 0x00#8 ∧ t.ie = false ∧ t.faults = [] ∧
      t.cfg = s.cfg ∧ t.sched = rest ∧ (∀ u, u < s.cfg.nUnits → t.regsOf u = UnitRegs.drawn (s.draws + 6 * u)) ∧ s.draws < t.draws

/-- R7, R111: an invalid parameter set is refused as a whole, among them those R111 names. -/
def Obligations.BadConfigurationIsRefused : Prop :=
  (∀ s : State, paramsValid s.cfg = false → step s = .refused .badConfiguration) ∧
  (∀ p : Params, p.table = [] ∨ p.fOsc = 0 ∨ p.maxPoll = .bounded 0 → paramsValid p = false) ∧
  ∀ (p : Params) (d e : UnitDesc) (u w : Nat) (r q : Reg), resolve p u = some d → resolve p w = some e → u ≠ w →
    addressOf d r = addressOf e q → paramsValid p = false

/-! ## Invariants and whole-machine rules -/

/-- Every step keeps the canonical form of the stores and FAULTS without repeats. -/
def Obligations.StepKeepsCanonicalForm : Prop := ∀ s t : State, s.Canonical → step s = .next t → t.Canonical

/-- R52, R79, R84, R98 to R100, R32: every step of every agent keeps SeqInv. -/
def Obligations.StepKeepsSequencerInvariant : Prop := ∀ s t : State, s.SeqInv → step s = .next t → t.SeqInv

/-- R74, R52: while the guard is held no step of any agent undoes what the phases have written. -/
def Obligations.StepKeepsConfiguredFields : Prop :=
  ∀ s t : State, s.SeqInv → s.Configured → step s = .next t → t.Configured

/-- The three invariants hold after reset: at State.reset, and for any parameters and draws in their ranges. -/
def Obligations.ResetMeetsInvariants : Prop :=
  (State.reset.Canonical ∧ State.reset.SeqInv ∧ State.reset.Configured) ∧
  ∀ (c : Params) (x : Undetermined), Store.Wf UnitRegs.unlisted x.units → Store.Wf prUnlisted x.pr → Store.Wf dirUnlisted x.dir →
    (State.resetWith c x).PollInRange →
    (State.resetWith c x).Canonical ∧ (State.resetWith c x).SeqInv ∧ (State.resetWith c x).Configured

/-- R74 (b) to (e), R90: whatever the agents did while the command ran, GUARD_REL finishes with the unit powered,
clocked and framed as the command asked and IE restored from PRIOR. -/
def Obligations.GuardReleaseDeliversConfiguration : Prop :=
  ∀ (s : State) (d : UnitDesc), s.SeqInv → s.Configured → s.phase = .guardRel → resolve s.cfg s.lat.unit.toNat = some d →
    ∃ t, exec .phaseGuardRel s = .next t ∧ UnitConfigured t s.lat.unit.toNat d s.lat ∧ t.ie = s.prior ∧
      t.phase = .idle ∧ t.done = true ∧ t.result = .ok

/-- R34, R109: no step but a reset removes a recorded fault. -/
def Obligations.NoStepClearsFault : Prop :=
  ∀ s t : State, (∀ rest, s.sched ≠ .reset :: rest) → step s = .next t → ∀ f ∈ s.faults, f ∈ t.faults

/-- R6, R16: the parameters are fixed for the machine. -/
def Obligations.ParametersNeverChange : Prop := ∀ s t : State, step s = .next t → t.cfg = s.cfg

/-- R91, R72: PHASE changes only by a step of SEQ, by the acceptance of a command, or by reset. -/
def Obligations.OnlySeqMovesPhase : Prop :=
  ∀ s t : State, step s = .next t → t.phase ≠ s.phase →
    s.sched = [] ∨ (∃ rest, s.sched = .seq :: rest) ∨ (∃ rest, s.sched = .reset :: rest) ∨
      (s.phase = .idle ∧ t.phase = .resolve ∧ ∃ a w rest, s.sched = .host a (.cmdWrite w) :: rest)

/-- R88, R90, R52: while the command runs on, PRIOR stands and IE is 0, and the step that ends it puts PRIOR back into IE. -/
def Obligations.GuardIsBalanced : Prop :=
  ∀ s t : State, s.SeqInv → s.Guarded → (∀ rest, s.sched ≠ .reset :: rest) → step s = .next t →
    (t.phase ≠ .idle → t.prior = s.prior ∧ t.ie = false) ∧ (t.phase = .idle → t.ie = s.prior ∧ t.result = .ok)

/-- R12, R132, R20, R21: SEQ never writes POL, IEN, TC, RIP, DATA or a bit it does not name, of a powered unit: each
register differs at most in the fields of R132. -/
def Obligations.SeqWritesOnlyItsFields : Prop :=
  ∀ (s t : State) (d : UnitDesc) (i : Nat), paramsValid s.cfg = true → resolve s.cfg s.lat.unit.toNat = some d →
    s.gated s.lat.unit.toNat = false → exec s.phase.instr s = .next t → i < 8 →
    (t.regsOf s.lat.unit.toNat).data = (s.regsOf s.lat.unit.toNat).data ∧
    (i ≠ d.posDS.val → (t.regsOf s.lat.unit.toNat).status.getLsbD i = (s.regsOf s.lat.unit.toNat).status.getLsbD i) ∧
    (i ≠ d.posSZHI.val → (t.regsOf s.lat.unit.toNat).ctrlb.getLsbD i = (s.regsOf s.lat.unit.toNat).ctrlb.getLsbD i) ∧
    (t.regsOf s.lat.unit.toNat).ctrla.getLsbD d.posPOL.val = (s.regsOf s.lat.unit.toNat).ctrla.getLsbD d.posPOL.val ∧
    ∀ w, w ≠ s.lat.unit.toNat → t.regsOf w = s.regsOf w

/-! ## Whole commands -/

/-- R91, R135 (90_conflicts.md C14): once the guard is acquired the sequence runs to completion, with SEQ alone in
11, 12 or 10 steps, and IE is as it was. -/
def Obligations.GuardedSequenceCompletes : Prop :=
  ∀ s : State, paramsValid s.cfg = true → s.sched = [] → s.phase = .guardAcq → s.lat.unit.toNat < s.cfg.nUnits →
    ∃ t, Host.Core.run Sys2Proof.core (guardSteps s.lat.mode) s = .next t ∧ t.phase = .idle ∧ t.done = true ∧ t.result = .ok ∧ t.ie = s.ie

/-- R73, R74, R135: a legal INIT written by MAIN to an idle machine, on a powered unit that shows quiescence, with a
representable divisor, runs to completion and configures the unit as asked. -/
def Obligations.InitConfiguresQuietUnit : Prop :=
  ∀ (s : State) (unit : BitVec 4) (mode : Mode) (stop : Stop) (size : BitVec 4) (par : BitVec 2) (baud : BitVec 32) (d : UnitDesc),
    paramsValid s.cfg = true → s.phase = .idle → s.SeqInv → (Instr.init unit mode stop size par baud).wf s.cfg.addrW = true →
    s.sched = [.host .main (.cmdWrite (encodeInit unit mode stop size par baud))] →
    resolve s.cfg unit.toNat = some d → s.gated unit.toNat = false →
    (s.regsOf unit.toNat).status.getLsbD d.posTC.val = true → (s.regsOf unit.toNat).status.getLsbD d.posRIP.val = false →
    (∀ m, Mult mode m → 1 ≤ s.cfg.fOsc / (m * baud.toNat) ∧ s.cfg.fOsc / (m * baud.toNat) ≤ 4096) →
    ∃ t l, Operands l unit mode stop size par baud ∧ Host.Core.run Sys2Proof.core (1 + (3 + guardSteps mode)) s = .next t ∧
      t.phase = .idle ∧ t.done = true ∧ t.result = .ok ∧ t.ie = s.ie ∧ UnitConfigured t unit.toNat d l

/-- R86, R108: with MAX_POLL = BOUNDED n, a unit that never shows quiescence makes the command finish TIMEOUT at the
n-th read, with nothing written. -/
def Obligations.BoundedPollTimesOut : Prop :=
  ∀ (s : State) (n : Nat) (d : UnitDesc), paramsValid s.cfg = true → s.sched = [] → s.phase = .poll → s.pcnt = 0 →
    s.cfg.maxPoll = .bounded n → resolve s.cfg s.lat.unit.toNat = some d → s.gated s.lat.unit.toNat = false →
    (s.regsOf s.lat.unit.toNat).status.getLsbD d.posTC.val = false ∨ (s.regsOf s.lat.unit.toNat).status.getLsbD d.posRIP.val = true →
    ∃ t, Host.Core.run Sys2Proof.core n s = .next t ∧ Finished s t .timeout

/-- R87: with MAX_POLL = UNBOUNDED, a unit that never shows quiescence blocks the command for ever. -/
def Obligations.UnboundedPollBlocks : Prop :=
  ∀ (s : State) (k : Nat) (d : UnitDesc), paramsValid s.cfg = true → s.sched = [] → s.phase = .poll →
    s.cfg.maxPoll = .unbounded → resolve s.cfg s.lat.unit.toNat = some d → s.gated s.lat.unit.toNat = false →
    (s.regsOf s.lat.unit.toNat).status.getLsbD d.posTC.val = false ∨ (s.regsOf s.lat.unit.toNat).status.getLsbD d.posRIP.val = true →
    Host.Core.run Sys2Proof.core k s = .next s
end

