-- ==== Sys2Proof/Laws/Field.lean ====
section
/-! SUPPORT. Bits of a byte after a field is replaced, and of STATUS after TC and RIP are replaced. -/

namespace Sys2Proof.Laws

open Sys2Proof.Machine

/-- Which bits a field occupies. -/
theorem getLsbD_fieldMask (lo w : Nat) (h : lo + w ≤ 8) (i : Nat) :
    (fieldMask lo w).getLsbD i = decide (lo ≤ i ∧ i < lo + w) := by
  have hlo : lo < 9 := by omega
  have hw : w < 9 := by omega
  rcases Nat.lt_or_ge i 8 with hi | hi
  · interval_cases lo <;> interval_cases w <;> first | omega | (interval_cases i <;> rfl)
  · rw [BitVec.getLsbD_of_ge _ _ hi]
    have : ¬(lo ≤ i ∧ i < lo + w) := by omega
    simp [this]

/-- Replacing a field changes its bits only (20_memory.md R46). -/
theorem getLsbD_insertField (x : Byte) (lo w : Nat) (v : BitVec w) (h : lo + w ≤ 8) (i : Nat) (hi : i < 8) :
    (insertField x lo w (v.setWidth 8)).getLsbD i = if lo ≤ i ∧ i < lo + w then v.getLsbD (i - lo) else x.getLsbD i := by
  simp only [insertField, BitVec.getLsbD_or, BitVec.getLsbD_and, BitVec.getLsbD_not, getLsbD_fieldMask lo w h,
    BitVec.getLsbD_shiftLeft, BitVec.getLsbD_setWidth, hi, decide_true, Bool.true_and]
  split
  · rename_i hr
    have : i - lo < 8 := by omega
    simp [hr, this]
  · rename_i hr
    rcases Nat.lt_or_ge i lo with hl | hl
    · simp [hl]
    · have : ¬ i < lo := by omega
      have hz : v.getLsbD (i - lo) = false := BitVec.getLsbD_of_ge _ _ (by omega)
      simp [hr, this, hz]

/-- The field reads back as written. -/
theorem fieldOf_insertField (x : Byte) (lo w : Nat) (v : BitVec w) (h : lo + w ≤ 8) :
    fieldOf (insertField x lo w (v.setWidth 8)) lo w = v := by
  apply BitVec.eq_of_getLsbD_eq
  intro i hi
  rw [fieldOf, BitVec.getLsbD_extractLsb', getLsbD_insertField x lo w v h _ (by omega)]
  simp [hi]

/-- A field that shares no bit with the replaced one reads as before. -/
theorem fieldOf_insertField_disjoint (x : Byte) (lo w : Nat) (v : BitVec w) (lo' w' : Nat) (h : lo + w ≤ 8) (h' : lo' + w' ≤ 8)
    (hd : lo + w ≤ lo' ∨ lo' + w' ≤ lo) : fieldOf (insertField x lo w (v.setWidth 8)) lo' w' = fieldOf x lo' w' := by
  apply BitVec.eq_of_getLsbD_eq
  intro i hi
  rw [fieldOf, fieldOf, BitVec.getLsbD_extractLsb', BitVec.getLsbD_extractLsb', getLsbD_insertField x lo w v h _ (by omega)]
  have : ¬(lo ≤ lo' + i ∧ lo' + i < lo + w) := by omega
  simp [this]

/-- The bits of STATUS that hold TC and RIP. -/
theorem getLsbD_lineMask (d : UnitDesc) (i : Nat) (hi : i < 8) :
    (lineMask d).getLsbD i = decide (i = d.posTC.val ∨ i = d.posRIP.val) := by
  have h1 := d.posTC.isLt
  have h2 := d.posRIP.isLt
  simp only [lineMask]
  generalize d.posTC.val = a at h1 ⊢
  generalize d.posRIP.val = b at h2 ⊢
  interval_cases a <;> interval_cases b <;> interval_cases i <;> rfl

/-- STATUS after its TC and RIP bits are replaced. -/
theorem getLsbD_withLineBits (d : UnitDesc) (x y : Byte) (i : Nat) (hi : i < 8) :
    (withLineBits d x y).getLsbD i = if i = d.posTC.val ∨ i = d.posRIP.val then y.getLsbD i else x.getLsbD i := by
  simp only [withLineBits, BitVec.getLsbD_or, BitVec.getLsbD_and, BitVec.getLsbD_not, getLsbD_lineMask d i hi, hi,
    decide_true, Bool.true_and]
  split <;> rename_i h <;> simp [h]

/-- The byte LINE's values are given in. -/
theorem getLsbD_lineByte (d : UnitDesc) (tc rip : Bool) (h : d.posTC ≠ d.posRIP) :
    (lineByte d tc rip).getLsbD d.posTC.val = tc ∧ (lineByte d tc rip).getLsbD d.posRIP.val = rip := by
  have h1 := d.posTC.isLt
  have h2 := d.posRIP.isLt
  have h3 : d.posTC.val ≠ d.posRIP.val := fun e => h (Fin.ext e)
  simp only [lineByte]
  generalize d.posTC.val = a at h1 h3 ⊢
  generalize d.posRIP.val = b at h2 h3 ⊢
  interval_cases a <;> interval_cases b <;> first | omega | (cases tc <;> cases rip <;> decide)

end Sys2Proof.Laws
end

