-- ==== Sys2Proof/Laws/Store.lean ====
section
/-! SUPPORT. The laws of keyed stores: read after write, and that every write keeps the canonical form. -/

namespace Sys2Proof.Laws

open Sys2Proof.Machine

variable {α : Type}

theorem read_insert_same (d : α) (l : Store α) (k : Nat) (v : α) : Store.read d (Store.insert l k v) k = v := by
  induction l with
  | nil => simp [Store.insert, Store.read]
  | cons e t ih =>
    obtain ⟨j, w⟩ := e
    simp only [Store.insert]
    split
    · simp [Store.read]
    · split
      · simp [Store.read]
      · rename_i h
        simp [Store.read, Ne.symm h, ih]

theorem read_insert_other (d : α) (l : Store α) {k j : Nat} (v : α) (h : j ≠ k) :
    Store.read d (Store.insert l k v) j = Store.read d l j := by
  induction l with
  | nil => simp [Store.insert, Store.read, Ne.symm h]
  | cons e t ih =>
    obtain ⟨i, w⟩ := e
    simp only [Store.insert]
    split
    · simp [Store.read, Ne.symm h]
    · split
      · rename_i hk
        subst hk
        simp [Store.read, Ne.symm h]
      · simp [Store.read, ih]

theorem read_erase_same (d : α) (l : Store α) (k : Nat) : Store.read d (Store.erase l k) k = d := by
  induction l with
  | nil => rfl
  | cons e t ih =>
    obtain ⟨j, w⟩ := e
    simp only [Store.erase, List.filter_cons] at ih ⊢
    split
    · rename_i h
      simp only [bne_iff_ne] at h
      simp [Store.read, h, ih]
    · exact ih

theorem read_erase_other (d : α) (l : Store α) {k j : Nat} (h : j ≠ k) :
    Store.read d (Store.erase l k) j = Store.read d l j := by
  induction l with
  | nil => rfl
  | cons e t ih =>
    obtain ⟨i, w⟩ := e
    simp only [Store.erase, List.filter_cons] at ih ⊢
    split
    · simp [Store.read, ih]
    · rename_i hi
      simp only [bne_iff_ne, ne_eq, Decidable.not_not] at hi
      subst hi
      simp [Store.read, Ne.symm h, ih]

variable [DecidableEq α]

@[simp] theorem read_write_same (d : α) (l : Store α) (k : Nat) (v : α) : Store.read d (Store.write d l k v) k = v := by
  unfold Store.write
  split
  · rename_i h; rw [read_erase_same, h]
  · exact read_insert_same d l k v

theorem read_write_other (d : α) (l : Store α) {k j : Nat} (v : α) (h : j ≠ k) :
    Store.read d (Store.write d l k v) j = Store.read d l j := by
  unfold Store.write
  split
  · exact read_erase_other d l h
  · exact read_insert_other d l v h

theorem read_write (d : α) (l : Store α) (k j : Nat) (v : α) :
    Store.read d (Store.write d l k v) j = if j = k then v else Store.read d l j := by
  split
  · rename_i h; subst h; exact read_write_same d l j v
  · rename_i h; exact read_write_other d l v h

omit [DecidableEq α] in
theorem mem_insert {l : Store α} {k : Nat} {v : α} {e : Nat × α} (h : e ∈ Store.insert l k v) : e = (k, v) ∨ e ∈ l := by
  induction l with
  | nil => simpa [Store.insert] using h
  | cons x t ih =>
    obtain ⟨j, w⟩ := x
    simp only [Store.insert] at h
    split at h
    · simpa using h
    · split at h
      · simp only [List.mem_cons] at h ⊢; tauto
      · simp only [List.mem_cons] at h ⊢
        rcases h with h | h
        · tauto
        · rcases ih h with h | h <;> tauto

omit [DecidableEq α] in
theorem insert_sorted {l : Store α} (k : Nat) (v : α) (h : l.Pairwise (fun a b => a.1 < b.1)) :
    (Store.insert l k v).Pairwise (fun a b => a.1 < b.1) := by
  induction l with
  | nil => simp [Store.insert]
  | cons e t ih =>
    obtain ⟨j, w⟩ := e
    rw [List.pairwise_cons] at h
    obtain ⟨h1, h2⟩ := h
    simp only [Store.insert]
    split
    · rename_i hk
      simp only [List.pairwise_cons, List.mem_cons, forall_eq_or_imp]
      exact ⟨⟨hk, fun e he => lt_trans hk (h1 e he)⟩, h1, h2⟩
    · split
      · rename_i hk; subst hk; exact List.pairwise_cons.mpr ⟨h1, h2⟩
      · rename_i hlt hne
        refine List.pairwise_cons.mpr ⟨fun e he => ?_, ih h2⟩
        rcases mem_insert he with rfl | he
        · exact lt_of_le_of_ne (not_lt.mp hlt) (Ne.symm hne)
        · exact h1 e he

/-- Every write keeps the canonical form. -/
theorem write_wf {d : α} {l : Store α} (k : Nat) (v : α) (h : Store.Wf d l) : Store.Wf d (Store.write d l k v) := by
  unfold Store.write
  split
  · exact ⟨h.1.filter _, fun e he => h.2 e (List.mem_of_mem_filter he)⟩
  · rename_i hv
    refine ⟨insert_sorted k v h.1, fun e he => ?_⟩
    rcases mem_insert he with rfl | he
    · exact hv
    · exact h.2 e he

omit [DecidableEq α] in
theorem nil_wf (d : α) : Store.Wf d ([] : Store α) := ⟨List.Pairwise.nil, by simp⟩

end Sys2Proof.Laws
end

