-- ==== Sys2Proof/Laws/State.lean ====
section
/-! SUPPORT. One lemma per field per update of State, so that no proof unfolds a record update, and what the accessors read after each update. -/

namespace Sys2Proof.Laws

open Sys2Proof.Machine

variable (s : State)

/-! ## setPhase -/

@[simp] theorem setPhase_phase (p : Phase) : (s.setPhase p).phase = p := rfl
@[simp] theorem setPhase_lat (p : Phase) : (s.setPhase p).lat = s.lat := rfl
@[simp] theorem setPhase_divq (p : Phase) : (s.setPhase p).divq = s.divq := rfl
@[simp] theorem setPhase_prior (p : Phase) : (s.setPhase p).prior = s.prior := rfl
@[simp] theorem setPhase_pcnt (p : Phase) : (s.setPhase p).pcnt = s.pcnt := rfl
@[simp] theorem setPhase_done (p : Phase) : (s.setPhase p).done = s.done := rfl
@[simp] theorem setPhase_result (p : Phase) : (s.setPhase p).result = s.result := rfl
@[simp] theorem setPhase_reject (p : Phase) : (s.setPhase p).reject = s.reject := rfl
@[simp] theorem setPhase_faults (p : Phase) : (s.setPhase p).faults = s.faults := rfl
@[simp] theorem setPhase_units (p : Phase) : (s.setPhase p).units = s.units := rfl
@[simp] theorem setPhase_ie (p : Phase) : (s.setPhase p).ie = s.ie := rfl
@[simp] theorem setPhase_pr (p : Phase) : (s.setPhase p).pr = s.pr := rfl
@[simp] theorem setPhase_dir (p : Phase) : (s.setPhase p).dir = s.dir := rfl
@[simp] theorem setPhase_cfg (p : Phase) : (s.setPhase p).cfg = s.cfg := rfl
@[simp] theorem setPhase_sched (p : Phase) : (s.setPhase p).sched = s.sched := rfl
@[simp] theorem setPhase_agent (p : Phase) : (s.setPhase p).agent = s.agent := rfl
@[simp] theorem setPhase_draws (p : Phase) : (s.setPhase p).draws = s.draws := rfl
@[simp] theorem setPhase_busOut (p : Phase) : (s.setPhase p).busOut = s.busOut := rfl
@[simp] theorem setPhase_statOut (p : Phase) : (s.setPhase p).statOut = s.statOut := rfl

/-! ## setRegs -/

@[simp] theorem setRegs_phase (u : Nat) (x : UnitRegs) : (s.setRegs u x).phase = s.phase := rfl
@[simp] theorem setRegs_lat (u : Nat) (x : UnitRegs) : (s.setRegs u x).lat = s.lat := rfl
@[simp] theorem setRegs_divq (u : Nat) (x : UnitRegs) : (s.setRegs u x).divq = s.divq := rfl
@[simp] theorem setRegs_prior (u : Nat) (x : UnitRegs) : (s.setRegs u x).prior = s.prior := rfl
@[simp] theorem setRegs_pcnt (u : Nat) (x : UnitRegs) : (s.setRegs u x).pcnt = s.pcnt := rfl
@[simp] theorem setRegs_done (u : Nat) (x : UnitRegs) : (s.setRegs u x).done = s.done := rfl
@[simp] theorem setRegs_result (u : Nat) (x : UnitRegs) : (s.setRegs u x).result = s.result := rfl
@[simp] theorem setRegs_reject (u : Nat) (x : UnitRegs) : (s.setRegs u x).reject = s.reject := rfl
@[simp] theorem setRegs_faults (u : Nat) (x : UnitRegs) : (s.setRegs u x).faults = s.faults := rfl
@[simp] theorem setRegs_units (u : Nat) (x : UnitRegs) : (s.setRegs u x).units = Store.write UnitRegs.unlisted s.units u x := rfl
@[simp] theorem setRegs_ie (u : Nat) (x : UnitRegs) : (s.setRegs u x).ie = s.ie := rfl
@[simp] theorem setRegs_pr (u : Nat) (x : UnitRegs) : (s.setRegs u x).pr = s.pr := rfl
@[simp] theorem setRegs_dir (u : Nat) (x : UnitRegs) : (s.setRegs u x).dir = s.dir := rfl
@[simp] theorem setRegs_cfg (u : Nat) (x : UnitRegs) : (s.setRegs u x).cfg = s.cfg := rfl
@[simp] theorem setRegs_sched (u : Nat) (x : UnitRegs) : (s.setRegs u x).sched = s.sched := rfl
@[simp] theorem setRegs_agent (u : Nat) (x : UnitRegs) : (s.setRegs u x).agent = s.agent := rfl
@[simp] theorem setRegs_draws (u : Nat) (x : UnitRegs) : (s.setRegs u x).draws = s.draws := rfl
@[simp] theorem setRegs_busOut (u : Nat) (x : UnitRegs) : (s.setRegs u x).busOut = s.busOut := rfl
@[simp] theorem setRegs_statOut (u : Nat) (x : UnitRegs) : (s.setRegs u x).statOut = s.statOut := rfl

/-! ## advance -/

@[simp] theorem advance_phase (n : Nat) : (s.advance n).phase = s.phase := rfl
@[simp] theorem advance_lat (n : Nat) : (s.advance n).lat = s.lat := rfl
@[simp] theorem advance_divq (n : Nat) : (s.advance n).divq = s.divq := rfl
@[simp] theorem advance_prior (n : Nat) : (s.advance n).prior = s.prior := rfl
@[simp] theorem advance_pcnt (n : Nat) : (s.advance n).pcnt = s.pcnt := rfl
@[simp] theorem advance_done (n : Nat) : (s.advance n).done = s.done := rfl
@[simp] theorem advance_result (n : Nat) : (s.advance n).result = s.result := rfl
@[simp] theorem advance_reject (n : Nat) : (s.advance n).reject = s.reject := rfl
@[simp] theorem advance_faults (n : Nat) : (s.advance n).faults = s.faults := rfl
@[simp] theorem advance_units (n : Nat) : (s.advance n).units = s.units := rfl
@[simp] theorem advance_ie (n : Nat) : (s.advance n).ie = s.ie := rfl
@[simp] theorem advance_pr (n : Nat) : (s.advance n).pr = s.pr := rfl
@[simp] theorem advance_dir (n : Nat) : (s.advance n).dir = s.dir := rfl
@[simp] theorem advance_cfg (n : Nat) : (s.advance n).cfg = s.cfg := rfl
@[simp] theorem advance_sched (n : Nat) : (s.advance n).sched = s.sched := rfl
@[simp] theorem advance_agent (n : Nat) : (s.advance n).agent = s.agent := rfl
@[simp] theorem advance_draws (n : Nat) : (s.advance n).draws = s.draws + n := rfl
@[simp] theorem advance_busOut (n : Nat) : (s.advance n).busOut = s.busOut := rfl
@[simp] theorem advance_statOut (n : Nat) : (s.advance n).statOut = s.statOut := rfl

/-! ## rejectWith -/

@[simp] theorem rejectWith_phase (c : RejectCode) : (s.rejectWith c).phase = s.phase := rfl
@[simp] theorem rejectWith_lat (c : RejectCode) : (s.rejectWith c).lat = s.lat := rfl
@[simp] theorem rejectWith_divq (c : RejectCode) : (s.rejectWith c).divq = s.divq := rfl
@[simp] theorem rejectWith_prior (c : RejectCode) : (s.rejectWith c).prior = s.prior := rfl
@[simp] theorem rejectWith_pcnt (c : RejectCode) : (s.rejectWith c).pcnt = s.pcnt := rfl
@[simp] theorem rejectWith_done (c : RejectCode) : (s.rejectWith c).done = s.done := rfl
@[simp] theorem rejectWith_result (c : RejectCode) : (s.rejectWith c).result = s.result := rfl
@[simp] theorem rejectWith_reject (c : RejectCode) : (s.rejectWith c).reject = c := rfl
@[simp] theorem rejectWith_faults (c : RejectCode) : (s.rejectWith c).faults = s.faults := rfl
@[simp] theorem rejectWith_units (c : RejectCode) : (s.rejectWith c).units = s.units := rfl
@[simp] theorem rejectWith_ie (c : RejectCode) : (s.rejectWith c).ie = s.ie := rfl
@[simp] theorem rejectWith_pr (c : RejectCode) : (s.rejectWith c).pr = s.pr := rfl
@[simp] theorem rejectWith_dir (c : RejectCode) : (s.rejectWith c).dir = s.dir := rfl
@[simp] theorem rejectWith_cfg (c : RejectCode) : (s.rejectWith c).cfg = s.cfg := rfl
@[simp] theorem rejectWith_sched (c : RejectCode) : (s.rejectWith c).sched = s.sched := rfl
@[simp] theorem rejectWith_agent (c : RejectCode) : (s.rejectWith c).agent = s.agent := rfl
@[simp] theorem rejectWith_draws (c : RejectCode) : (s.rejectWith c).draws = s.draws := rfl
@[simp] theorem rejectWith_busOut (c : RejectCode) : (s.rejectWith c).busOut = s.busOut := rfl
@[simp] theorem rejectWith_statOut (c : RejectCode) : (s.rejectWith c).statOut = s.statOut := rfl

/-! ## accept -/

@[simp] theorem accept_phase (l : Latch) : (s.accept l).phase = .resolve := rfl
@[simp] theorem accept_lat (l : Latch) : (s.accept l).lat = l := rfl
@[simp] theorem accept_divq (l : Latch) : (s.accept l).divq = s.divq := rfl
@[simp] theorem accept_prior (l : Latch) : (s.accept l).prior = s.prior := rfl
@[simp] theorem accept_pcnt (l : Latch) : (s.accept l).pcnt = s.pcnt := rfl
@[simp] theorem accept_done (l : Latch) : (s.accept l).done = false := rfl
@[simp] theorem accept_result (l : Latch) : (s.accept l).result = s.result := rfl
@[simp] theorem accept_reject (l : Latch) : (s.accept l).reject = .none := rfl
@[simp] theorem accept_faults (l : Latch) : (s.accept l).faults = s.faults := rfl
@[simp] theorem accept_units (l : Latch) : (s.accept l).units = s.units := rfl
@[simp] theorem accept_ie (l : Latch) : (s.accept l).ie = s.ie := rfl
@[simp] theorem accept_pr (l : Latch) : (s.accept l).pr = s.pr := rfl
@[simp] theorem accept_dir (l : Latch) : (s.accept l).dir = s.dir := rfl
@[simp] theorem accept_cfg (l : Latch) : (s.accept l).cfg = s.cfg := rfl
@[simp] theorem accept_sched (l : Latch) : (s.accept l).sched = s.sched := rfl
@[simp] theorem accept_agent (l : Latch) : (s.accept l).agent = s.agent := rfl
@[simp] theorem accept_draws (l : Latch) : (s.accept l).draws = s.draws := rfl
@[simp] theorem accept_busOut (l : Latch) : (s.accept l).busOut = s.busOut := rfl
@[simp] theorem accept_statOut (l : Latch) : (s.accept l).statOut = s.statOut := rfl

/-! ## finish -/

@[simp] theorem finish_phase (c : ResultCode) : (s.finish c).phase = .idle := rfl
@[simp] theorem finish_lat (c : ResultCode) : (s.finish c).lat = Latch.drawn s.draws := rfl
@[simp] theorem finish_divq (c : ResultCode) : (s.finish c).divq = Config.drawDivq s.draws := rfl
@[simp] theorem finish_prior (c : ResultCode) : (s.finish c).prior = Config.drawBit s.draws := rfl
@[simp] theorem finish_pcnt (c : ResultCode) : (s.finish c).pcnt = drawnPcnt s.cfg.maxPoll s.draws := rfl
@[simp] theorem finish_done (c : ResultCode) : (s.finish c).done = true := rfl
@[simp] theorem finish_result (c : ResultCode) : (s.finish c).result = c := rfl
@[simp] theorem finish_reject (c : ResultCode) : (s.finish c).reject = s.reject := rfl
@[simp] theorem finish_faults (c : ResultCode) : (s.finish c).faults = s.faults := rfl
@[simp] theorem finish_units (c : ResultCode) : (s.finish c).units = s.units := rfl
@[simp] theorem finish_ie (c : ResultCode) : (s.finish c).ie = s.ie := rfl
@[simp] theorem finish_pr (c : ResultCode) : (s.finish c).pr = s.pr := rfl
@[simp] theorem finish_dir (c : ResultCode) : (s.finish c).dir = s.dir := rfl
@[simp] theorem finish_cfg (c : ResultCode) : (s.finish c).cfg = s.cfg := rfl
@[simp] theorem finish_sched (c : ResultCode) : (s.finish c).sched = s.sched := rfl
@[simp] theorem finish_agent (c : ResultCode) : (s.finish c).agent = s.agent := rfl
@[simp] theorem finish_draws (c : ResultCode) : (s.finish c).draws = s.draws + 1 := rfl
@[simp] theorem finish_busOut (c : ResultCode) : (s.finish c).busOut = s.busOut := rfl
@[simp] theorem finish_statOut (c : ResultCode) : (s.finish c).statOut = s.statOut := rfl

/-! ## disableInterrupts -/

@[simp] theorem disableInterrupts_phase : s.disableInterrupts.phase = s.phase := rfl
@[simp] theorem disableInterrupts_lat : s.disableInterrupts.lat = s.lat := rfl
@[simp] theorem disableInterrupts_divq : s.disableInterrupts.divq = s.divq := rfl
@[simp] theorem disableInterrupts_prior : s.disableInterrupts.prior = s.ie := rfl
@[simp] theorem disableInterrupts_pcnt : s.disableInterrupts.pcnt = s.pcnt := rfl
@[simp] theorem disableInterrupts_done : s.disableInterrupts.done = s.done := rfl
@[simp] theorem disableInterrupts_result : s.disableInterrupts.result = s.result := rfl
@[simp] theorem disableInterrupts_reject : s.disableInterrupts.reject = s.reject := rfl
@[simp] theorem disableInterrupts_faults : s.disableInterrupts.faults = s.faults := rfl
@[simp] theorem disableInterrupts_units : s.disableInterrupts.units = s.units := rfl
@[simp] theorem disableInterrupts_ie : s.disableInterrupts.ie = false := rfl
@[simp] theorem disableInterrupts_pr : s.disableInterrupts.pr = s.pr := rfl
@[simp] theorem disableInterrupts_dir : s.disableInterrupts.dir = s.dir := rfl
@[simp] theorem disableInterrupts_cfg : s.disableInterrupts.cfg = s.cfg := rfl
@[simp] theorem disableInterrupts_sched : s.disableInterrupts.sched = s.sched := rfl
@[simp] theorem disableInterrupts_agent : s.disableInterrupts.agent = s.agent := rfl
@[simp] theorem disableInterrupts_draws : s.disableInterrupts.draws = s.draws := rfl
@[simp] theorem disableInterrupts_busOut : s.disableInterrupts.busOut = s.busOut := rfl
@[simp] theorem disableInterrupts_statOut : s.disableInterrupts.statOut = s.statOut := rfl

/-! ## enableInterrupts -/

@[simp] theorem enableInterrupts_phase (t : Bool) : (s.enableInterrupts t).phase = s.phase := rfl
@[simp] theorem enableInterrupts_lat (t : Bool) : (s.enableInterrupts t).lat = s.lat := rfl
@[simp] theorem enableInterrupts_divq (t : Bool) : (s.enableInterrupts t).divq = s.divq := rfl
@[simp] theorem enableInterrupts_prior (t : Bool) : (s.enableInterrupts t).prior = s.prior := rfl
@[simp] theorem enableInterrupts_pcnt (t : Bool) : (s.enableInterrupts t).pcnt = s.pcnt := rfl
@[simp] theorem enableInterrupts_done (t : Bool) : (s.enableInterrupts t).done = s.done := rfl
@[simp] theorem enableInterrupts_result (t : Bool) : (s.enableInterrupts t).result = s.result := rfl
@[simp] theorem enableInterrupts_reject (t : Bool) : (s.enableInterrupts t).reject = s.reject := rfl
@[simp] theorem enableInterrupts_faults (t : Bool) : (s.enableInterrupts t).faults = s.faults := rfl
@[simp] theorem enableInterrupts_units (t : Bool) : (s.enableInterrupts t).units = s.units := rfl
@[simp] theorem enableInterrupts_ie (t : Bool) : (s.enableInterrupts t).ie = t := rfl
@[simp] theorem enableInterrupts_pr (t : Bool) : (s.enableInterrupts t).pr = s.pr := rfl
@[simp] theorem enableInterrupts_dir (t : Bool) : (s.enableInterrupts t).dir = s.dir := rfl
@[simp] theorem enableInterrupts_cfg (t : Bool) : (s.enableInterrupts t).cfg = s.cfg := rfl
@[simp] theorem enableInterrupts_sched (t : Bool) : (s.enableInterrupts t).sched = s.sched := rfl
@[simp] theorem enableInterrupts_agent (t : Bool) : (s.enableInterrupts t).agent = s.agent := rfl
@[simp] theorem enableInterrupts_draws (t : Bool) : (s.enableInterrupts t).draws = s.draws := rfl
@[simp] theorem enableInterrupts_busOut (t : Bool) : (s.enableInterrupts t).busOut = s.busOut := rfl
@[simp] theorem enableInterrupts_statOut (t : Bool) : (s.enableInterrupts t).statOut = s.statOut := rfl

/-! ## setDirection -/

@[simp] theorem setDirection_phase (p : Nat) (d : Dir) : (s.setDirection p d).phase = s.phase := rfl
@[simp] theorem setDirection_lat (p : Nat) (d : Dir) : (s.setDirection p d).lat = s.lat := rfl
@[simp] theorem setDirection_divq (p : Nat) (d : Dir) : (s.setDirection p d).divq = s.divq := rfl
@[simp] theorem setDirection_prior (p : Nat) (d : Dir) : (s.setDirection p d).prior = s.prior := rfl
@[simp] theorem setDirection_pcnt (p : Nat) (d : Dir) : (s.setDirection p d).pcnt = s.pcnt := rfl
@[simp] theorem setDirection_done (p : Nat) (d : Dir) : (s.setDirection p d).done = s.done := rfl
@[simp] theorem setDirection_result (p : Nat) (d : Dir) : (s.setDirection p d).result = s.result := rfl
@[simp] theorem setDirection_reject (p : Nat) (d : Dir) : (s.setDirection p d).reject = s.reject := rfl
@[simp] theorem setDirection_faults (p : Nat) (d : Dir) : (s.setDirection p d).faults = s.faults := rfl
@[simp] theorem setDirection_units (p : Nat) (d : Dir) : (s.setDirection p d).units = s.units := rfl
@[simp] theorem setDirection_ie (p : Nat) (d : Dir) : (s.setDirection p d).ie = s.ie := rfl
@[simp] theorem setDirection_pr (p : Nat) (d : Dir) : (s.setDirection p d).pr = s.pr := rfl
@[simp] theorem setDirection_dir (p : Nat) (d : Dir) : (s.setDirection p d).dir = Store.write dirUnlisted s.dir p d := rfl
@[simp] theorem setDirection_cfg (p : Nat) (d : Dir) : (s.setDirection p d).cfg = s.cfg := rfl
@[simp] theorem setDirection_sched (p : Nat) (d : Dir) : (s.setDirection p d).sched = s.sched := rfl
@[simp] theorem setDirection_agent (p : Nat) (d : Dir) : (s.setDirection p d).agent = s.agent := rfl
@[simp] theorem setDirection_draws (p : Nat) (d : Dir) : (s.setDirection p d).draws = s.draws := rfl
@[simp] theorem setDirection_busOut (p : Nat) (d : Dir) : (s.setDirection p d).busOut = s.busOut := rfl
@[simp] theorem setDirection_statOut (p : Nat) (d : Dir) : (s.setDirection p d).statOut = s.statOut := rfl

/-! ## prWrite -/

@[simp] theorem prWrite_phase (id : Nat) (v : Byte) : (s.prWrite id v).phase = s.phase := rfl
@[simp] theorem prWrite_lat (id : Nat) (v : Byte) : (s.prWrite id v).lat = s.lat := rfl
@[simp] theorem prWrite_divq (id : Nat) (v : Byte) : (s.prWrite id v).divq = s.divq := rfl
@[simp] theorem prWrite_prior (id : Nat) (v : Byte) : (s.prWrite id v).prior = s.prior := rfl
@[simp] theorem prWrite_pcnt (id : Nat) (v : Byte) : (s.prWrite id v).pcnt = s.pcnt := rfl
@[simp] theorem prWrite_done (id : Nat) (v : Byte) : (s.prWrite id v).done = s.done := rfl
@[simp] theorem prWrite_result (id : Nat) (v : Byte) : (s.prWrite id v).result = s.result := rfl
@[simp] theorem prWrite_reject (id : Nat) (v : Byte) : (s.prWrite id v).reject = s.reject := rfl
@[simp] theorem prWrite_faults (id : Nat) (v : Byte) : (s.prWrite id v).faults = s.faults := rfl
@[simp] theorem prWrite_units (id : Nat) (v : Byte) : (s.prWrite id v).units = s.unitsAfterPr id v s.cfg.nUnits := rfl
@[simp] theorem prWrite_ie (id : Nat) (v : Byte) : (s.prWrite id v).ie = s.ie := rfl
@[simp] theorem prWrite_pr (id : Nat) (v : Byte) : (s.prWrite id v).pr = Store.write prUnlisted s.pr id v := rfl
@[simp] theorem prWrite_dir (id : Nat) (v : Byte) : (s.prWrite id v).dir = s.dir := rfl
@[simp] theorem prWrite_cfg (id : Nat) (v : Byte) : (s.prWrite id v).cfg = s.cfg := rfl
@[simp] theorem prWrite_sched (id : Nat) (v : Byte) : (s.prWrite id v).sched = s.sched := rfl
@[simp] theorem prWrite_agent (id : Nat) (v : Byte) : (s.prWrite id v).agent = s.agent := rfl
@[simp] theorem prWrite_busOut (id : Nat) (v : Byte) : (s.prWrite id v).busOut = s.busOut := rfl
@[simp] theorem prWrite_statOut (id : Nat) (v : Byte) : (s.prWrite id v).statOut = s.statOut := rfl

/-! ## raise -/

@[simp] theorem raise_phase (f : ModelFault) : (s.raise f).phase = s.phase := by unfold State.raise; split <;> rfl
@[simp] theorem raise_lat (f : ModelFault) : (s.raise f).lat = s.lat := by unfold State.raise; split <;> rfl
@[simp] theorem raise_divq (f : ModelFault) : (s.raise f).divq = s.divq := by unfold State.raise; split <;> rfl
@[simp] theorem raise_prior (f : ModelFault) : (s.raise f).prior = s.prior := by unfold State.raise; split <;> rfl
@[simp] theorem raise_pcnt (f : ModelFault) : (s.raise f).pcnt = s.pcnt := by unfold State.raise; split <;> rfl
@[simp] theorem raise_done (f : ModelFault) : (s.raise f).done = s.done := by unfold State.raise; split <;> rfl
@[simp] theorem raise_result (f : ModelFault) : (s.raise f).result = s.result := by unfold State.raise; split <;> rfl
@[simp] theorem raise_reject (f : ModelFault) : (s.raise f).reject = s.reject := by unfold State.raise; split <;> rfl
@[simp] theorem raise_units (f : ModelFault) : (s.raise f).units = s.units := by unfold State.raise; split <;> rfl
@[simp] theorem raise_ie (f : ModelFault) : (s.raise f).ie = s.ie := by unfold State.raise; split <;> rfl
@[simp] theorem raise_pr (f : ModelFault) : (s.raise f).pr = s.pr := by unfold State.raise; split <;> rfl
@[simp] theorem raise_dir (f : ModelFault) : (s.raise f).dir = s.dir := by unfold State.raise; split <;> rfl
@[simp] theorem raise_cfg (f : ModelFault) : (s.raise f).cfg = s.cfg := by unfold State.raise; split <;> rfl
@[simp] theorem raise_sched (f : ModelFault) : (s.raise f).sched = s.sched := by unfold State.raise; split <;> rfl
@[simp] theorem raise_agent (f : ModelFault) : (s.raise f).agent = s.agent := by unfold State.raise; split <;> rfl
@[simp] theorem raise_draws (f : ModelFault) : (s.raise f).draws = s.draws := by unfold State.raise; split <;> rfl
@[simp] theorem raise_busOut (f : ModelFault) : (s.raise f).busOut = s.busOut := by unfold State.raise; split <;> rfl
@[simp] theorem raise_statOut (f : ModelFault) : (s.raise f).statOut = s.statOut := by unfold State.raise; split <;> rfl

/-! ## fieldWrite -/

@[simp] theorem fieldWrite_phase (u : Nat) (f : RegField) (v : BitVec f.width) : (s.fieldWrite u f v).phase = s.phase := by unfold State.fieldWrite; split <;> rfl
@[simp] theorem fieldWrite_lat (u : Nat) (f : RegField) (v : BitVec f.width) : (s.fieldWrite u f v).lat = s.lat := by unfold State.fieldWrite; split <;> rfl
@[simp] theorem fieldWrite_divq (u : Nat) (f : RegField) (v : BitVec f.width) : (s.fieldWrite u f v).divq = s.divq := by unfold State.fieldWrite; split <;> rfl
@[simp] theorem fieldWrite_prior (u : Nat) (f : RegField) (v : BitVec f.width) : (s.fieldWrite u f v).prior = s.prior := by unfold State.fieldWrite; split <;> rfl
@[simp] theorem fieldWrite_pcnt (u : Nat) (f : RegField) (v : BitVec f.width) : (s.fieldWrite u f v).pcnt = s.pcnt := by unfold State.fieldWrite; split <;> rfl
@[simp] theorem fieldWrite_done (u : Nat) (f : RegField) (v : BitVec f.width) : (s.fieldWrite u f v).done = s.done := by unfold State.fieldWrite; split <;> rfl
@[simp] theorem fieldWrite_result (u : Nat) (f : RegField) (v : BitVec f.width) : (s.fieldWrite u f v).result = s.result := by unfold State.fieldWrite; split <;> rfl
@[simp] theorem fieldWrite_reject (u : Nat) (f : RegField) (v : BitVec f.width) : (s.fieldWrite u f v).reject = s.reject := by unfold State.fieldWrite; split <;> rfl
@[simp] theorem fieldWrite_faults (u : Nat) (f : RegField) (v : BitVec f.width) : (s.fieldWrite u f v).faults = s.faults := by unfold State.fieldWrite; split <;> rfl
@[simp] theorem fieldWrite_ie (u : Nat) (f : RegField) (v : BitVec f.width) : (s.fieldWrite u f v).ie = s.ie := by unfold State.fieldWrite; split <;> rfl
@[simp] theorem fieldWrite_pr (u : Nat) (f : RegField) (v : BitVec f.width) : (s.fieldWrite u f v).pr = s.pr := by unfold State.fieldWrite; split <;> rfl
@[simp] theorem fieldWrite_dir (u : Nat) (f : RegField) (v : BitVec f.width) : (s.fieldWrite u f v).dir = s.dir := by unfold State.fieldWrite; split <;> rfl
@[simp] theorem fieldWrite_cfg (u : Nat) (f : RegField) (v : BitVec f.width) : (s.fieldWrite u f v).cfg = s.cfg := by unfold State.fieldWrite; split <;> rfl
@[simp] theorem fieldWrite_sched (u : Nat) (f : RegField) (v : BitVec f.width) : (s.fieldWrite u f v).sched = s.sched := by unfold State.fieldWrite; split <;> rfl
@[simp] theorem fieldWrite_agent (u : Nat) (f : RegField) (v : BitVec f.width) : (s.fieldWrite u f v).agent = s.agent := by unfold State.fieldWrite; split <;> rfl
@[simp] theorem fieldWrite_draws (u : Nat) (f : RegField) (v : BitVec f.width) : (s.fieldWrite u f v).draws = s.draws := by unfold State.fieldWrite; split <;> rfl
@[simp] theorem fieldWrite_busOut (u : Nat) (f : RegField) (v : BitVec f.width) : (s.fieldWrite u f v).busOut = s.busOut := by unfold State.fieldWrite; split <;> rfl
@[simp] theorem fieldWrite_statOut (u : Nat) (f : RegField) (v : BitVec f.width) : (s.fieldWrite u f v).statOut = s.statOut := by unfold State.fieldWrite; split <;> rfl

/-! ## hostWrite -/

@[simp] theorem hostWrite_phase (u : Nat) (d : UnitDesc) (r : Reg) (v : Byte) : (s.hostWrite u d r v).phase = s.phase := by unfold State.hostWrite; split <;> first | rfl | (cases r <;> rfl)
@[simp] theorem hostWrite_lat (u : Nat) (d : UnitDesc) (r : Reg) (v : Byte) : (s.hostWrite u d r v).lat = s.lat := by unfold State.hostWrite; split <;> first | rfl | (cases r <;> rfl)
@[simp] theorem hostWrite_divq (u : Nat) (d : UnitDesc) (r : Reg) (v : Byte) : (s.hostWrite u d r v).divq = s.divq := by unfold State.hostWrite; split <;> first | rfl | (cases r <;> rfl)
@[simp] theorem hostWrite_prior (u : Nat) (d : UnitDesc) (r : Reg) (v : Byte) : (s.hostWrite u d r v).prior = s.prior := by unfold State.hostWrite; split <;> first | rfl | (cases r <;> rfl)
@[simp] theorem hostWrite_pcnt (u : Nat) (d : UnitDesc) (r : Reg) (v : Byte) : (s.hostWrite u d r v).pcnt = s.pcnt := by unfold State.hostWrite; split <;> first | rfl | (cases r <;> rfl)
@[simp] theorem hostWrite_done (u : Nat) (d : UnitDesc) (r : Reg) (v : Byte) : (s.hostWrite u d r v).done = s.done := by unfold State.hostWrite; split <;> first | rfl | (cases r <;> rfl)
@[simp] theorem hostWrite_result (u : Nat) (d : UnitDesc) (r : Reg) (v : Byte) : (s.hostWrite u d r v).result = s.result := by unfold State.hostWrite; split <;> first | rfl | (cases r <;> rfl)
@[simp] theorem hostWrite_reject (u : Nat) (d : UnitDesc) (r : Reg) (v : Byte) : (s.hostWrite u d r v).reject = s.reject := by unfold State.hostWrite; split <;> first | rfl | (cases r <;> rfl)
@[simp] theorem hostWrite_faults (u : Nat) (d : UnitDesc) (r : Reg) (v : Byte) : (s.hostWrite u d r v).faults = s.faults := by unfold State.hostWrite; split <;> first | rfl | (cases r <;> rfl)
@[simp] theorem hostWrite_ie (u : Nat) (d : UnitDesc) (r : Reg) (v : Byte) : (s.hostWrite u d r v).ie = s.ie := by unfold State.hostWrite; split <;> first | rfl | (cases r <;> rfl)
@[simp] theorem hostWrite_pr (u : Nat) (d : UnitDesc) (r : Reg) (v : Byte) : (s.hostWrite u d r v).pr = s.pr := by unfold State.hostWrite; split <;> first | rfl | (cases r <;> rfl)
@[simp] theorem hostWrite_dir (u : Nat) (d : UnitDesc) (r : Reg) (v : Byte) : (s.hostWrite u d r v).dir = s.dir := by unfold State.hostWrite; split <;> first | rfl | (cases r <;> rfl)
@[simp] theorem hostWrite_cfg (u : Nat) (d : UnitDesc) (r : Reg) (v : Byte) : (s.hostWrite u d r v).cfg = s.cfg := by unfold State.hostWrite; split <;> first | rfl | (cases r <;> rfl)
@[simp] theorem hostWrite_sched (u : Nat) (d : UnitDesc) (r : Reg) (v : Byte) : (s.hostWrite u d r v).sched = s.sched := by unfold State.hostWrite; split <;> first | rfl | (cases r <;> rfl)
@[simp] theorem hostWrite_agent (u : Nat) (d : UnitDesc) (r : Reg) (v : Byte) : (s.hostWrite u d r v).agent = s.agent := by unfold State.hostWrite; split <;> first | rfl | (cases r <;> rfl)
@[simp] theorem hostWrite_busOut (u : Nat) (d : UnitDesc) (r : Reg) (v : Byte) : (s.hostWrite u d r v).busOut = s.busOut := by unfold State.hostWrite; split <;> first | rfl | (cases r <;> rfl)
@[simp] theorem hostWrite_statOut (u : Nat) (d : UnitDesc) (r : Reg) (v : Byte) : (s.hostWrite u d r v).statOut = s.statOut := by unfold State.hostWrite; split <;> first | rfl | (cases r <;> rfl)

/-! ## Accessors -/

@[simp] theorem setPhase_regsOf (p : Phase) (w : Nat) : (s.setPhase p).regsOf w = s.regsOf w := rfl
@[simp] theorem setPhase_prOf (p : Phase) (j : Nat) : (s.setPhase p).prOf j = s.prOf j := rfl
@[simp] theorem setPhase_dirOf (p : Phase) (q : Nat) : (s.setPhase p).dirOf q = s.dirOf q := rfl
@[simp] theorem setPhase_gated (p : Phase) (w : Nat) : (s.setPhase p).gated w = s.gated w := rfl
@[simp] theorem setRegs_prOf (u : Nat) (x : UnitRegs) (j : Nat) : (s.setRegs u x).prOf j = s.prOf j := rfl
@[simp] theorem setRegs_dirOf (u : Nat) (x : UnitRegs) (q : Nat) : (s.setRegs u x).dirOf q = s.dirOf q := rfl
@[simp] theorem setRegs_gated (u : Nat) (x : UnitRegs) (w : Nat) : (s.setRegs u x).gated w = s.gated w := rfl
@[simp] theorem advance_regsOf (n : Nat) (w : Nat) : (s.advance n).regsOf w = s.regsOf w := rfl
@[simp] theorem advance_prOf (n : Nat) (j : Nat) : (s.advance n).prOf j = s.prOf j := rfl
@[simp] theorem advance_dirOf (n : Nat) (q : Nat) : (s.advance n).dirOf q = s.dirOf q := rfl
@[simp] theorem advance_gated (n : Nat) (w : Nat) : (s.advance n).gated w = s.gated w := rfl
@[simp] theorem rejectWith_regsOf (c : RejectCode) (w : Nat) : (s.rejectWith c).regsOf w = s.regsOf w := rfl
@[simp] theorem rejectWith_prOf (c : RejectCode) (j : Nat) : (s.rejectWith c).prOf j = s.prOf j := rfl
@[simp] theorem rejectWith_dirOf (c : RejectCode) (q : Nat) : (s.rejectWith c).dirOf q = s.dirOf q := rfl
@[simp] theorem rejectWith_gated (c : RejectCode) (w : Nat) : (s.rejectWith c).gated w = s.gated w := rfl
@[simp] theorem accept_regsOf (l : Latch) (w : Nat) : (s.accept l).regsOf w = s.regsOf w := rfl
@[simp] theorem accept_prOf (l : Latch) (j : Nat) : (s.accept l).prOf j = s.prOf j := rfl
@[simp] theorem accept_dirOf (l : Latch) (q : Nat) : (s.accept l).dirOf q = s.dirOf q := rfl
@[simp] theorem accept_gated (l : Latch) (w : Nat) : (s.accept l).gated w = s.gated w := rfl
@[simp] theorem finish_regsOf (c : ResultCode) (w : Nat) : (s.finish c).regsOf w = s.regsOf w := rfl
@[simp] theorem finish_prOf (c : ResultCode) (j : Nat) : (s.finish c).prOf j = s.prOf j := rfl
@[simp] theorem finish_dirOf (c : ResultCode) (q : Nat) : (s.finish c).dirOf q = s.dirOf q := rfl
@[simp] theorem finish_gated (c : ResultCode) (w : Nat) : (s.finish c).gated w = s.gated w := rfl
@[simp] theorem disableInterrupts_regsOf (w : Nat) : s.disableInterrupts.regsOf w = s.regsOf w := rfl
@[simp] theorem disableInterrupts_prOf (j : Nat) : s.disableInterrupts.prOf j = s.prOf j := rfl
@[simp] theorem disableInterrupts_dirOf (q : Nat) : s.disableInterrupts.dirOf q = s.dirOf q := rfl
@[simp] theorem disableInterrupts_gated (w : Nat) : s.disableInterrupts.gated w = s.gated w := rfl
@[simp] theorem enableInterrupts_regsOf (t : Bool) (w : Nat) : (s.enableInterrupts t).regsOf w = s.regsOf w := rfl
@[simp] theorem enableInterrupts_prOf (t : Bool) (j : Nat) : (s.enableInterrupts t).prOf j = s.prOf j := rfl
@[simp] theorem enableInterrupts_dirOf (t : Bool) (q : Nat) : (s.enableInterrupts t).dirOf q = s.dirOf q := rfl
@[simp] theorem enableInterrupts_gated (t : Bool) (w : Nat) : (s.enableInterrupts t).gated w = s.gated w := rfl
@[simp] theorem setDirection_regsOf (p : Nat) (d : Dir) (w : Nat) : (s.setDirection p d).regsOf w = s.regsOf w := rfl
@[simp] theorem setDirection_prOf (p : Nat) (d : Dir) (j : Nat) : (s.setDirection p d).prOf j = s.prOf j := rfl
@[simp] theorem setDirection_gated (p : Nat) (d : Dir) (w : Nat) : (s.setDirection p d).gated w = s.gated w := rfl
@[simp] theorem prWrite_dirOf (id : Nat) (v : Byte) (q : Nat) : (s.prWrite id v).dirOf q = s.dirOf q := rfl
@[simp] theorem raise_regsOf (f : ModelFault) (w : Nat) : (s.raise f).regsOf w = s.regsOf w := by simp [State.regsOf]
@[simp] theorem raise_prOf (f : ModelFault) (j : Nat) : (s.raise f).prOf j = s.prOf j := by simp [State.prOf]
@[simp] theorem raise_dirOf (f : ModelFault) (q : Nat) : (s.raise f).dirOf q = s.dirOf q := by simp [State.dirOf]
@[simp] theorem raise_gated (f : ModelFault) (w : Nat) : (s.raise f).gated w = s.gated w := by simp [State.gated]
@[simp] theorem fieldWrite_prOf (u : Nat) (f : RegField) (v : BitVec f.width) (j : Nat) : (s.fieldWrite u f v).prOf j = s.prOf j := by simp [State.prOf]
@[simp] theorem fieldWrite_dirOf (u : Nat) (f : RegField) (v : BitVec f.width) (q : Nat) : (s.fieldWrite u f v).dirOf q = s.dirOf q := by simp [State.dirOf]
@[simp] theorem fieldWrite_gated (u : Nat) (f : RegField) (v : BitVec f.width) (w : Nat) : (s.fieldWrite u f v).gated w = s.gated w := by simp [State.gated]
@[simp] theorem hostWrite_prOf (u : Nat) (d : UnitDesc) (r : Reg) (v : Byte) (j : Nat) : (s.hostWrite u d r v).prOf j = s.prOf j := by simp [State.prOf]
@[simp] theorem hostWrite_dirOf (u : Nat) (d : UnitDesc) (r : Reg) (v : Byte) (q : Nat) : (s.hostWrite u d r v).dirOf q = s.dirOf q := by simp [State.dirOf]
@[simp] theorem hostWrite_gated (u : Nat) (d : UnitDesc) (r : Reg) (v : Byte) (w : Nat) : (s.hostWrite u d r v).gated w = s.gated w := by simp [State.gated]

theorem setRegs_regsOf (u v : Nat) (x : UnitRegs) : (s.setRegs u x).regsOf v = if v = u then x else s.regsOf v :=
  read_write UnitRegs.unlisted s.units u v x

theorem setDirection_dirOf (p q : Nat) (d : Dir) : (s.setDirection p d).dirOf q = if q = p then d else s.dirOf q :=
  read_write dirUnlisted s.dir p q d

theorem prWrite_prOf (id j : Nat) (v : Byte) : (s.prWrite id v).prOf j = if j = id then v else s.prOf j :=
  read_write prUnlisted s.pr id j v

/-- What raise does to FAULTS (60_exceptions.md R109). -/
theorem mem_raise_faults (f g : ModelFault) : g ∈ (s.raise f).faults ↔ g ∈ s.faults ∨ g = f := by
  unfold State.raise
  split
  · constructor
    · exact Or.inl
    · rintro (h | rfl) <;> assumption
  · simp

/-- FAULTS stays without repeats. -/
theorem raise_nodup (f : ModelFault) (h : s.faults.Nodup) : (s.raise f).faults.Nodup := by
  unfold State.raise
  split
  · exact h
  · rename_i hf
    rw [List.nodup_append]
    refine ⟨h, List.nodup_singleton f, ?_⟩
    intro a ha b hb
    rw [List.mem_singleton] at hb
    subst hb
    rintro rfl
    exact hf ha

end Sys2Proof.Laws
end

