-- ==== Sys2Proof/Laws/Ops.lean ====
section
/-! SUPPORT. One lemma per shared operation, saying all it can do, and that every operation keeps the canonical form. -/

namespace Sys2Proof.Laws

open Sys2Proof.Machine

/-! ## Registers of a unit -/

@[simp] theorem get_set_same (x : UnitRegs) (r : Reg) (v : Byte) (h : r ≠ .divh) : (x.set r v).get r = v := by
  cases r <;> first | rfl | exact absurd rfl h

@[simp] theorem get_set_divh (x : UnitRegs) (v : Byte) : (x.set .divh v).get .divh = 0#4 ++ v.extractLsb' 0 4 := rfl

theorem get_set_other (x : UnitRegs) {r q : Reg} (v : Byte) (h : q ≠ r) : (x.set r v).get q = x.get q := by
  cases r <;> cases q <;> first | rfl | exact absurd rfl h

/-- DIVH[7:4] reads as 0 (10_state.md R22). -/
theorem getLsbD_divh (x : UnitRegs) (i : Nat) : (x.get .divh).getLsbD i = (decide (i < 4) && x.divh.getLsbD i) := by
  simp only [UnitRegs.get, BitVec.getLsbD_append]
  rcases Nat.lt_or_ge i 4 with h | h
  · simp [h]
  · simp [Nat.not_lt.mpr h]

/-! ## FieldWrite -/

/-- FieldWrite and the move to the next phase: one field is replaced and nothing else (20_memory.md R46). -/
theorem fieldWrite_setPhase_written (s : State) (u : Nat) (f : RegField) (v : BitVec f.width) (p : Phase)
    (h8 : f.lo + f.width ≤ 8) (h4 : f.reg = .divh → f.lo + f.width ≤ 4) :
    FieldWritten s ((s.fieldWrite u f v).setPhase p) u f v p := by
  unfold FieldWritten
  cases hg : s.gated u with
  | true =>
    have e : s.fieldWrite u f v = s := by simp [State.fieldWrite, hg]
    rw [e]
    exact ⟨rfl, fun _ _ => rfl, fun _ => rfl, fun h => by simp at h⟩
  | false =>
    have e : s.fieldWrite u f v =
        s.setRegs u ((s.regsOf u).set f.reg (insertField ((s.regsOf u).get f.reg) f.lo f.width (v.setWidth 8))) := by
      simp [State.fieldWrite, hg]
    rw [e]
    refine ⟨rfl, fun w hw => by simp [setRegs_regsOf, hw], fun h => by simp at h, fun _ => ⟨fun r hr => ?_, fun i hi => ?_⟩⟩
    · simp [setRegs_regsOf, get_set_other _ _ hr]
    · simp only [setPhase_regsOf, setRegs_regsOf, if_true]
      by_cases hd : f.reg = .divh
      · have h4' := h4 hd
        rw [hd, get_set_divh, BitVec.getLsbD_append]
        rcases Nat.lt_or_ge i 4 with hi4 | hi4
        · simp only [hi4, decide_true, BitVec.getLsbD_extractLsb', Bool.true_and, Nat.zero_add]
          rw [getLsbD_insertField _ _ _ _ h8 i hi]
          simp
        · have : ¬(f.lo ≤ i ∧ i < f.lo + f.width) := by omega
          simp [Nat.not_lt.mpr hi4, this, getLsbD_divh]
      · rw [get_set_same _ _ _ hd, getLsbD_insertField _ _ _ _ h8 i hi]

/-! ## Power-reduction registers -/

/-- The unit registers after a write of PR[id], the first `n` units looked at. -/
theorem read_unitsAfterPr (s : State) (id : Nat) (v : Byte) (n w : Nat) :
    Store.read UnitRegs.unlisted (s.unitsAfterPr id v n) w =
      if w < n ∧ s.ungates id v w = true then UnitRegs.drawn (s.draws + 6 * w) else s.regsOf w := by
  induction n with
  | zero => simp [State.unitsAfterPr, State.regsOf]
  | succ n ih =>
    simp only [State.unitsAfterPr]
    split
    · rename_i h
      rw [read_write]
      by_cases hw : w = n
      · subst hw; simp [h]
      · rw [if_neg hw, ih]
        have : (w < n + 1) ↔ w < n := by omega
        simp [this]
    · rename_i h
      rw [ih]
      by_cases hw : w = n
      · subst hw; simp [h]
      · have : (w < n + 1) ↔ w < n := by omega
        simp [this]

/-- A unit a write ungates has a record. -/
theorem ungates_lt {s : State} {id : Nat} {v : Byte} {u : Nat} (h : s.ungates id v u = true) : u < s.cfg.nUnits := by
  simp only [State.ungates, resolve] at h
  split at h
  · rename_i d hd
    exact (List.getElem?_eq_some_iff.mp hd).1
  · simp at h

/-- The registers of every unit after PR[id] <- v: drawn if the write takes its bit from 1 to 0, kept otherwise
(20_memory.md R43). -/
theorem prWrite_regsOf (s : State) (id : Nat) (v : Byte) (w : Nat) :
    (s.prWrite id v).regsOf w = if s.ungates id v w = true then UnitRegs.drawn (s.draws + 6 * w) else s.regsOf w := by
  rw [State.regsOf, prWrite_units, read_unitsAfterPr]
  by_cases h : s.ungates id v w = true
  · simp [h, ungates_lt h]
  · simp [h]

theorem anyUngated_iff (s : State) (id : Nat) (v : Byte) (n : Nat) :
    s.anyUngated id v n = true ↔ ∃ u, u < n ∧ s.ungates id v u = true := by
  induction n with
  | zero => simp [State.anyUngated]
  | succ n ih =>
    simp only [State.anyUngated, Bool.or_eq_true, ih]
    constructor
    · rintro (h | ⟨u, hu, h⟩)
      · exact ⟨n, by omega, h⟩
      · exact ⟨u, by omega, h⟩
    · rintro ⟨u, hu, h⟩
      by_cases e : u = n
      · subst e; exact Or.inl h
      · exact Or.inr ⟨u, by omega, h⟩

theorem prWrite_draws (s : State) (id : Nat) (v : Byte) :
    (s.prWrite id v).draws = if ∃ u, u < s.cfg.nUnits ∧ s.ungates id v u = true then s.draws + 96 else s.draws := by
  by_cases h : s.anyUngated id v s.cfg.nUnits = true
  · simp [State.prWrite, h, (anyUngated_iff s id v s.cfg.nUnits).mp h]
  · have h' := mt (anyUngated_iff s id v s.cfg.nUnits).mpr h
    simp [State.prWrite, h, h']

/-- The bits of the byte clear_bit stores (41_sequencer.md R89). -/
theorem getLsbD_clear (x : Byte) (b : Fin 8) (i : Nat) (hi : i < 8) :
    (x &&& ~~~ (1#8 <<< b.val)).getLsbD i = if i = b.val then false else x.getLsbD i := by
  have hb := b.isLt
  simp only [BitVec.getLsbD_and, BitVec.getLsbD_not, hi, decide_true, Bool.true_and, BitVec.getLsbD_shiftLeft]
  generalize b.val = k at hb ⊢
  by_cases h : i = k
  · subst h; simp
  · rcases Nat.lt_or_ge i k with hl | hl
    · simp [hl, h]
    · have hn : i - k ≠ 0 := by omega
      simp [h, Nat.not_lt.mpr hl, hn]

/-! ## finish -/

/-- finish changes RESULT, DONE and PHASE, draws the four latches, and changes nothing else (41_sequencer.md R83, 10_state.md R29). -/
theorem finish_finished (s : State) (c : ResultCode) : Finished s (s.finish c) c := rfl

/-- A drawn PCNT is in the range 10_state.md R32 gives it. -/
theorem drawnPcnt_range (m : MaxPoll) (n : Nat) :
    (m = .unbounded → drawnPcnt m n = 0) ∧ ∀ k, m = .bounded k → drawnPcnt m n ≤ k := by
  refine ⟨fun h => by subst h; rfl, fun k h => ?_⟩
  subst h
  exact Nat.lt_succ_iff.mp (Nat.mod_lt _ (Nat.succ_pos k))

/-- finish leaves PCNT in range, whatever it was. -/
theorem finish_pollInRange (s : State) (c : ResultCode) : (s.finish c).PollInRange := by
  unfold State.PollInRange
  simp only [finish_cfg, finish_pcnt, finish_phase]
  split
  · rename_i h; exact (drawnPcnt_range _ _).1 h
  · rename_i k h; exact ⟨(drawnPcnt_range _ _).2 k h, fun h => by simp at h⟩

/-! ## Phases that need a unit -/

theorem withUnit_some {s : State} {d : UnitDesc} (h : resolve s.cfg s.lat.unit.toNat = some d)
    (k : Nat → UnitDesc → Host.Outcome State Fault Refusal) : withUnit s k = k s.lat.unit.toNat d := by
  simp [withUnit, h]

theorem withUnit_none {s : State} (h : resolve s.cfg s.lat.unit.toNat = none)
    (k : Nat → UnitDesc → Host.Outcome State Fault Refusal) : withUnit s k = .fault .unresolvedUnit := by
  simp [withUnit, h]

/-- If a phase that needs a unit answers a next state, LAT.unit has a record. -/
theorem withUnit_next {s t : State} {k : Nat → UnitDesc → Host.Outcome State Fault Refusal} (h : withUnit s k = .next t) :
    ∃ d, resolve s.cfg s.lat.unit.toNat = some d ∧ k s.lat.unit.toNat d = .next t := by
  cases hd : resolve s.cfg s.lat.unit.toNat with
  | none => rw [withUnit_none hd] at h; simp at h
  | some d => exact ⟨d, rfl, by rwa [withUnit_some hd] at h⟩

theorem resolve_isSome_iff (p : Params) (u : Nat) : (∃ d, resolve p u = some d) ↔ u < p.nUnits := by
  simp [resolve, Params.nUnits, ← Option.isSome_iff_exists]

/-! ## The canonical form -/

theorem unitsAfterPr_wf {s : State} (id : Nat) (v : Byte) (n : Nat) (h : Store.Wf UnitRegs.unlisted s.units) :
    Store.Wf UnitRegs.unlisted (s.unitsAfterPr id v n) := by
  induction n with
  | zero => exact h
  | succ n ih =>
    simp only [State.unitsAfterPr]
    split
    · exact write_wf _ _ ih
    · exact ih

theorem drawnUnits_wf (n k : Nat) : Store.Wf UnitRegs.unlisted (drawnUnits n k) := by
  induction k with
  | zero => exact nil_wf _
  | succ k ih => exact write_wf _ _ ih

theorem drawnPr_wf (n : Nat) (ds : List UnitDesc) : Store.Wf prUnlisted (drawnPr n ds) := by
  induction ds generalizing n with
  | nil => exact nil_wf _
  | cons d ds ih => exact write_wf _ _ (ih (n + 1))

theorem drawnDir_wf (n : Nat) (ds : List UnitDesc) : Store.Wf dirUnlisted (drawnDir n ds) := by
  induction ds generalizing n with
  | nil => exact nil_wf _
  | cons d ds ih => exact write_wf _ _ (write_wf _ _ (write_wf _ _ (ih (n + 3))))

theorem setRegs_canonical {s : State} (u : Nat) (x : UnitRegs) (h : s.Canonical) : (s.setRegs u x).Canonical :=
  ⟨write_wf _ _ h.1, h.2⟩

theorem fieldWrite_canonical {s : State} (u : Nat) (f : RegField) (v : BitVec f.width) (h : s.Canonical) :
    (s.fieldWrite u f v).Canonical := by
  unfold State.fieldWrite
  split
  · exact h
  · exact setRegs_canonical _ _ h

theorem hostWrite_canonical {s : State} (u : Nat) (d : UnitDesc) (r : Reg) (v : Byte) (h : s.Canonical) :
    (s.hostWrite u d r v).Canonical := by
  unfold State.hostWrite
  split
  · exact h
  · cases r <;> first | exact h | exact setRegs_canonical _ _ h

theorem lineWrite_canonical {s : State} (u : Nat) (d : UnitDesc) (tc rip : Bool) (h : s.Canonical) :
    (s.lineWrite u d tc rip).Canonical := setRegs_canonical _ _ h

theorem prWrite_canonical {s : State} (id : Nat) (v : Byte) (h : s.Canonical) : (s.prWrite id v).Canonical :=
  ⟨unitsAfterPr_wf _ _ _ h.1, write_wf _ _ h.2.1, h.2.2⟩

theorem setDirection_canonical {s : State} (p : Nat) (d : Dir) (h : s.Canonical) : (s.setDirection p d).Canonical :=
  ⟨h.1, h.2.1, write_wf _ _ h.2.2.1, h.2.2.2⟩

theorem raise_canonical {s : State} (f : ModelFault) (h : s.Canonical) : (s.raise f).Canonical := by
  refine ⟨?_, ?_, ?_, raise_nodup s f h.2.2.2⟩
  · rw [raise_units]; exact h.1
  · rw [raise_pr]; exact h.2.1
  · rw [raise_dir]; exact h.2.2.1

theorem resetInput_canonical (s : State) : s.resetInput.Canonical :=
  ⟨drawnUnits_wf _ _, drawnPr_wf _ _, drawnDir_wf _ _, List.nodup_nil⟩

theorem reset_stores_wf : Store.Wf UnitRegs.unlisted State.reset.units ∧ Store.Wf prUnlisted State.reset.pr ∧
    Store.Wf dirUnlisted State.reset.dir := ⟨nil_wf _, nil_wf _, nil_wf _⟩

/-! ## Reset -/

/-- The drawn registers of a unit. -/
theorem read_drawnUnits (n k u : Nat) (h : u < k) :
    Store.read UnitRegs.unlisted (drawnUnits n k) u = UnitRegs.drawn (n + 6 * u) := by
  induction k with
  | zero => omega
  | succ k ih =>
    simp only [drawnUnits]
    rw [read_write]
    split
    · rename_i e; subst e; rfl
    · rename_i e; exact ih (by omega)

end Sys2Proof.Laws
end

