-- ==== Sys2Proof/Laws/PerInstr.lean ====
section
/-! SUPPORT. Statements made per instruction: the encoding of each instruction has the format and the match bits of its row in spec/opcode_table.json. -/

namespace Sys2Proof.Laws.Format

/-- The row's format and match: the fixed bits of a CMD64 word (mask 0x00000000F0007FFF), WE of a BUSTX, the code of a PHASE4. -/
def Statement (i : Instr) : Prop :=
  match i with
  | .init _ _ _ _ _ _ => ∃ w, encode i = .cmd64 w ∧ w &&& 0x00000000F0007FFF#64 = 0x0000000010000000#64
  | .stat => encode i = .cmdRd
  | .busRd addr => ∃ v, encode i = .bustx false addr v
  | .busWr addr data => encode i = .bustx true addr data
  | .phaseIdle => encode i = .phase4 0b0000#4
  | .phaseResolve => encode i = .phase4 0b0001#4
  | .phaseValidate => encode i = .phase4 0b0010#4
  | .phasePoll => encode i = .phase4 0b0011#4
  | .phaseGuardAcq => encode i = .phase4 0b0100#4
  | .phasePwrClr => encode i = .phase4 0b0101#4
  | .phaseModeSel => encode i = .phase4 0b0110#4
  | .phaseDsWrite => encode i = .phase4 0b0111#4
  | .phaseXckDir => encode i = .phase4 0b1000#4
  | .phaseDivHi => encode i = .phase4 0b1001#4
  | .phaseDivLo => encode i = .phase4 0b1010#4
  | .phaseFrmSizeLo => encode i = .phase4 0b1011#4
  | .phaseFrmSizeHi => encode i = .phase4 0b1100#4
  | .phaseFrmParity => encode i = .phase4 0b1101#4
  | .phaseFrmStop => encode i = .phase4 0b1110#4
  | .phaseGuardRel => encode i = .phase4 0b1111#4

theorem init (unit : BitVec 4) (mode : Mode) (stop : Stop) (size : BitVec 4) (par : BitVec 2) (baud : BitVec 32) :
    Statement (.init unit mode stop size par baud) := by
  refine ⟨_, rfl, ?_⟩
  apply BitVec.eq_of_getLsbD_eq
  intro i hi
  simp only [encodeInit, BitVec.getLsbD_and, BitVec.getLsbD_append]
  interval_cases i <;> simp
theorem stat : Statement .stat := rfl
theorem busRd (addr : BusAddr) : Statement (.busRd addr) := ⟨_, rfl⟩
theorem busWr (addr : BusAddr) (data : Byte) : Statement (.busWr addr data) := rfl
theorem phaseIdle : Statement .phaseIdle := rfl
theorem phaseResolve : Statement .phaseResolve := rfl
theorem phaseValidate : Statement .phaseValidate := rfl
theorem phasePoll : Statement .phasePoll := rfl
theorem phaseGuardAcq : Statement .phaseGuardAcq := rfl
theorem phasePwrClr : Statement .phasePwrClr := rfl
theorem phaseModeSel : Statement .phaseModeSel := rfl
theorem phaseDsWrite : Statement .phaseDsWrite := rfl
theorem phaseXckDir : Statement .phaseXckDir := rfl
theorem phaseDivHi : Statement .phaseDivHi := rfl
theorem phaseDivLo : Statement .phaseDivLo := rfl
theorem phaseFrmSizeLo : Statement .phaseFrmSizeLo := rfl
theorem phaseFrmSizeHi : Statement .phaseFrmSizeHi := rfl
theorem phaseFrmParity : Statement .phaseFrmParity := rfl
theorem phaseFrmStop : Statement .phaseFrmStop := rfl
theorem phaseGuardRel : Statement .phaseGuardRel := rfl

end Sys2Proof.Laws.Format
end

