-- ==== Sys2Proof/Laws/Step.lean ====
section
/-! SUPPORT. What a step can do, said once: the decoder on the phase register, and the inversion of step into the turn that was taken. -/

namespace Sys2Proof.Laws

open Sys2Proof.Machine

@[simp] theorem ofCode_code (p : Phase) : Phase.ofCode p.code = p := by cases p <;> rfl

@[simp] theorem decode_phase (addrW : Nat) (p : Phase) : decode addrW (.phase4 p.code) = .ok p.instr := by
  simp [decode]

/-- SEQ's step executes the row of the phase in PHASE (00_scope.md R10). -/
theorem seqStep_eq (s : State) : seqStep s = exec s.phase.instr s := by
  simp [seqStep, runWord]

/-- If a step answers a next state, the parameters are valid and the next turn was taken. -/
theorem step_next {s t : State} (h : step s = .next t) : paramsValid s.cfg = true ∧ nextTurn s = .next t := by
  unfold step at h
  split at h
  · rename_i hv; exact ⟨hv, h⟩
  · simp at h

theorem step_of_valid {s : State} (h : paramsValid s.cfg = true) : step s = nextTurn s := by simp [step, h]

/-- The turns a step can take: SEQ's, a host agent's that is enabled, one that passes, LINE's, or reset. -/
theorem step_cases {s t : State} (h : step s = .next t) :
    (s.sched = [] ∧ exec s.phase.instr s = .next t) ∨
    (∃ rest, s.sched = .seq :: rest ∧ exec s.phase.instr { s with sched := rest } = .next t) ∨
    (∃ a act rest, s.sched = .host a act :: rest ∧ s.hostEnabled a act = true ∧ hostAct act { s with sched := rest, agent := a } = .next t) ∨
    (∃ a act rest, s.sched = .host a act :: rest ∧ s.hostEnabled a act = false ∧ t = { s with sched := rest }) ∨
    (∃ u tc rip rest, s.sched = .line u tc rip :: rest ∧ t = lineStep u tc rip { s with sched := rest }) ∨
    (∃ rest, s.sched = .reset :: rest ∧ t = State.resetInput { s with sched := rest }) := by
  obtain ⟨-, h⟩ := step_next h
  unfold nextTurn at h
  cases hs : s.sched with
  | nil =>
    rw [hs] at h
    exact Or.inl ⟨rfl, by rw [← seqStep_eq]; exact h⟩
  | cons x rest =>
    rw [hs] at h
    right
    cases x with
    | seq =>
      left
      exact ⟨rest, rfl, by have := seqStep_eq { s with sched := rest }; rw [← this]; exact h⟩
    | host a act =>
      right
      simp only [takeTurn, hostStep] at h
      cases he : s.hostEnabled a act with
      | true =>
        left
        have he' : State.hostEnabled { s with sched := rest } a act = true := he
        rw [if_pos he'] at h
        exact ⟨a, act, rest, rfl, he, h⟩
      | false =>
        right; left
        have he' : ¬ State.hostEnabled { s with sched := rest } a act = true := by
          have : State.hostEnabled { s with sched := rest } a act = false := he
          simp [this]
        rw [if_neg he'] at h
        exact ⟨a, act, rest, rfl, he, (Host.Outcome.next.inj h).symm⟩
    | line u tc rip =>
      right; right; right; left
      exact ⟨u, tc, rip, rest, rfl, (Host.Outcome.next.inj h).symm⟩
    | reset =>
      right; right; right; right
      exact ⟨rest, rfl, (Host.Outcome.next.inj h).symm⟩

/-- At the end of a run (70_reset_and_hazards.md R126) no step starts a command: the run stays at its end. -/
theorem runEnded_step {s t : State} (h : s.RunEnded) (hs : step s = .next t) : t.RunEnded := by
  obtain ⟨hp, hn⟩ := h
  have tail : ∀ {x rest}, s.sched = x :: rest → State.RunEnded { s with sched := rest } := fun hx =>
    ⟨hp, fun a act hm => hn a act (hx ▸ List.mem_cons_of_mem _ hm)⟩
  rcases step_cases hs with ⟨-, he⟩ | ⟨rest, hx, he⟩ | ⟨a, act, rest, hx, hen, -⟩ | ⟨a, act, rest, hx, -, rfl⟩ | ⟨u, tc, rip, rest, hx, rfl⟩ | ⟨rest, hx, rfl⟩
  · rw [hp] at he; cases he; exact ⟨hp, hn⟩
  · have he' : exec Phase.idle.instr { s with sched := rest } = .next t := by rw [← hp]; exact he
    cases he'; exact tail hx
  · rw [hn a act (by rw [hx]; exact List.mem_cons_self)] at hen; simp at hen
  · exact tail hx
  · unfold lineStep; split <;> exact tail hx
  · refine ⟨rfl, fun a act hm => ?_⟩
    have hh := hn a act (by rw [hx]; exact List.mem_cons_of_mem _ hm)
    cases a with
    | main => simp [State.hostEnabled] at hh
    | isr => cases act <;> rfl

end Sys2Proof.Laws
end

