-- ==== Sys2Proof/Tests/Slice0.lean ====
section
/-! SUPPORT. The model's own tests: ill-formed terms, words written out from 30_encoding.md and 95_test_vectors.md, one or two single steps an instruction with the results of 95_test_vectors.md, and a witness for the hypotheses of every statement. -/

namespace Sys2Proof.Tests

open Sys2Proof.Machine Sys2Proof.Claims

/-! ## WellFormed: one ill-formed term for each check -/

/-- E09: SIZE = 4 is below 5. -/
theorem test_wf_size_low : Instr.wf 16 (.init 0#4 .na .one 4#4 0b00#2 9600#32) = false := by decide
/-- E10: SIZE = 10 is above 9. -/
theorem test_wf_size_high : Instr.wf 16 (.init 0#4 .na .one 10#4 0b00#2 9600#32) = false := by decide
/-- E12: PAR = 11. -/
theorem test_wf_par : Instr.wf 16 (.init 0#4 .na .one 8#4 0b11#2 9600#32) = false := by decide
/-- E08: BAUD = 0, even in SS. -/
theorem test_wf_baud : Instr.wf 16 (.init 0#4 .ss .one 8#4 0b00#2 0#32) = false := by decide
/-- R61: an address has ADDR_W bits. -/
theorem test_wf_read_addr : Instr.wf 16 (.busRd 0x10000#32) = false := by decide
theorem test_wf_write_addr : Instr.wf 8 (.busWr 0x100#32 0#8) = false := by decide

/-! ## Decoding: words written out bit by bit -/

/-- E03, `INIT u0, MS, 9600, 2, 7, EVEN`: BAUD, OP 0001, UNIT 0000, MODE 10, STOP 1, SIZE 0111, PAR 01, RSV. -/
theorem test_decode_init_ms : decodeCmd (0x00002580#32 ++ 0b00010000101011101000000000000000#32) = .ok (.init 0#4 .ms .two 7#4 0b01#2 9600#32) := by decide
/-- E04, `INIT u1, SS, 9600, 1, 8, NONE`: MODE 11, STOP 0, SIZE 1000, PAR 00. -/
theorem test_decode_init_ss : decodeCmd (0x00002580#32 ++ 0b00010001110100000000000000000000#32) = .ok (.init 1#4 .ss .one 8#4 0b00#2 9600#32) := by decide
/-- E13: OP = 0000. -/
theorem test_decode_no_command : decodeCmd 0x0000258000100000#64 = .error (.noSuchCommand 0#4) := by decide
theorem test_decode_stat : decodeTableWord 0 0 = some .stat := by decide
/-- B02: WE 0, ADDR 0x00C5. -/
theorem test_decode_bus_rd : decodeTableWord 25 0b0000000001100010100000000 = some (.busRd 0x00C5#32) := by decide
/-- B01: WE 1, ADDR 0x00C5, DATA 0xF3. -/
theorem test_decode_bus_wr : decodeTableWord 25 0b1000000001100010111110011 = some (.busWr 0x00C5#32 0xF3#8) := by decide
theorem test_decode_bus_wide : decode 8 (.bustx true 0x100#32 0#8) = .error .addressTooWide := by decide
theorem test_decode_idle : decodeTableWord 8 0b0000 = some .phaseIdle := by decide
theorem test_decode_resolve : decodeTableWord 8 0b0001 = some .phaseResolve := by decide
theorem test_decode_validate : decodeTableWord 8 0b0010 = some .phaseValidate := by decide
theorem test_decode_poll : decodeTableWord 8 0b0011 = some .phasePoll := by decide
theorem test_decode_guard_acq : decodeTableWord 8 0b0100 = some .phaseGuardAcq := by decide
theorem test_decode_pwr_clr : decodeTableWord 8 0b0101 = some .phasePwrClr := by decide
theorem test_decode_mode_sel : decodeTableWord 8 0b0110 = some .phaseModeSel := by decide
theorem test_decode_ds_write : decodeTableWord 8 0b0111 = some .phaseDsWrite := by decide
theorem test_decode_xck_dir : decodeTableWord 8 0b1000 = some .phaseXckDir := by decide
theorem test_decode_div_hi : decodeTableWord 8 0b1001 = some .phaseDivHi := by decide
theorem test_decode_div_lo : decodeTableWord 8 0b1010 = some .phaseDivLo := by decide
theorem test_decode_frm_size_lo : decodeTableWord 8 0b1011 = some .phaseFrmSizeLo := by decide
theorem test_decode_frm_size_hi : decodeTableWord 8 0b1100 = some .phaseFrmSizeHi := by decide
theorem test_decode_frm_parity : decodeTableWord 8 0b1101 = some .phaseFrmParity := by decide
theorem test_decode_frm_stop : decodeTableWord 8 0b1110 = some .phaseFrmStop := by decide
theorem test_decode_guard_rel : decodeTableWord 8 0b1111 = some .phaseGuardRel := by decide

/-! ## Single steps -/

/-- The outcome is a next state that satisfies `p`. -/
def ran (o : Host.Outcome State Fault Refusal) (p : State → Bool) : Bool :=
  match o with
  | .next t => p t
  | .fault _ => false
  | .refused _ => false

/-- The outcome is the stop by name of log 14. -/
def stopped (o : Host.Outcome State Fault Refusal) : Bool :=
  match o with
  | .fault .unresolvedUnit => true
  | .next _ => false
  | .refused _ => false

/-- A machine of the reference instantiation in phase `p` with the command `l` latched. -/
def machineAt (p : Phase) (l : Latch) : State := { State.reset with phase := p, lat := l }

/-- A command on unit 0 in mode `m`, 9 data bits, odd parity, two stop bits, 9600 baud. -/
def cmd (m : Mode) : Latch := ⟨0#4, m, .two, .nine, .odd, 9600#32⟩

/-- The same with the registers of unit 0 given. -/
def withRegs (s : State) (x : UnitRegs) : State := { s with units := [(0, x)] }

/-- The start of 95_test_vectors.md section 2.4: CTRLA.MODE 11, DS 1, DIVH 0x0A, DIVL 0xBC, TC 1, RIP 0, d = 0x123. -/
def modeStart (p : Phase) (m : Mode) : State :=
  { withRegs (machineAt p (cmd m)) ⟨0x42#8, 0xC0#8, 0#8, 0xBC#8, 0xA#4, 0#8⟩ with divq := 0x123#12, dir := [(34, .output)] }

/-- E01: accepted, DONE and REJECT cleared, PHASE = RESOLVE (R72). -/
theorem test_init_accepts : ran (exec (.init 0#4 .na .one 8#4 0b00#2 9600#32) { State.reset with done := true, reject := .illegalCommand, result := .unsupportedDivisor })
    (fun t => decide (t.phase = .resolve ∧ t.lat = ⟨0#4, .na, .one, .eight, .none, 9600#32⟩ ∧ t.seqstat = 0x05#8)) = true := by decide
/-- E17: BUSY comes before ILLEGAL_COMMAND (R113). -/
theorem test_init_busy : ran (hostAct (.cmdWrite 0x0000258000100000#64) (machineAt .divLo (cmd .na)))
    (fun t => decide (t.seqstat = 0x21#8 ∧ t.phase = .divLo ∧ t.lat = cmd .na)) = true := by decide
/-- S07: after OK, then an ILLEGAL_COMMAND write. -/
theorem test_stat : ran (exec .stat { State.reset with done := true, reject := .illegalCommand }) (fun t => decide (t.statOut = 0x42#8)) = true := by decide
/-- S06 and S08 in one byte's fields: TIMEOUT, a BUSY rejection, not busy. -/
theorem test_stat_timeout : ran (exec .stat { State.reset with done := true, result := .timeout, reject := .busy }) (fun t => decide (t.statOut = 0x2E#8)) = true := by decide
/-- B02: DIVH reads with its upper four bits 0. -/
theorem test_bus_rd_divh : ran (exec (.busRd 0x00C5#32) (withRegs State.reset ⟨0x20#8, 0x06#8, 0#8, 0#8, 3#4, 0#8⟩)) (fun t => decide (t.busOut = 0x03#8)) = true := by decide
/-- B14: UnmappedAccess comes before HostHazard (R113). -/
theorem test_bus_rd_unmapped : ran (exec (.busRd 0x0300#32) (machineAt .poll (cmd .na))) (fun t => decide (t.faults = [.unmappedAccess 0x0300#32] ∧ t.busOut = 0#8)) = true := by decide
/-- B01: DIVH stores the low four bits. -/
theorem test_bus_wr_divh : ran (exec (.busWr 0x00C5#32 0xF3#8) State.reset) (fun t => decide ((t.regsOf 0).divh = 3#4 ∧ (t.regsOf 0).divl = 0#8)) = true := by decide
/-- B13: a write to a gated unit is ignored; unit 2 is PRR1 bit 1. -/
theorem test_bus_wr_gated : ran (exec (.busWr 0x00D4#32 0x10#8) { State.reset with pr := [(0x65, 0x02#8)] }) (fun t => decide ((t.regsOf 2).divl = 0#8)) = true := by decide
theorem test_idle : ran (exec .phaseIdle State.reset) (fun t => decide (t = State.reset)) = true := by decide
/-- RS02: id 3 of four units. -/
theorem test_resolve_last : ran (exec .phaseResolve (machineAt .resolve ⟨3#4, .na, .one, .eight, .none, 9600#32⟩)) (fun t => decide (t.phase = .validate)) = true := by decide
/-- RS03: id 4 of four units. -/
theorem test_resolve_invalid : ran (exec .phaseResolve (machineAt .resolve ⟨4#4, .na, .one, .eight, .none, 9600#32⟩)) (fun t => decide (t.phase = .idle ∧ t.seqstat = 0x0A#8)) = true := by decide
/-- DV06: 16 MHz, MS, 9600 gives 832. -/
theorem test_validate_ms : ran (exec .phaseValidate (machineAt .validate (cmd .ms))) (fun t => decide (t.divq = 832#12 ∧ t.phase = .poll)) = true := by decide
/-- DV16: 16 MHz, NA, 244 exceeds 4095. -/
theorem test_validate_err : ran (exec .phaseValidate (machineAt .validate ⟨0#4, .na, .one, .eight, .none, 244#32⟩)) (fun t => decide (t.phase = .idle ∧ t.seqstat = 0x06#8 ∧ t.units = [])) = true := by decide
/-- Q02: 0x60 is quiescent. -/
theorem test_poll_quiet : ran (exec .phasePoll (withRegs (machineAt .poll (cmd .na)) ⟨0x60#8, 0x06#8, 0#8, 0#8, 0#4, 0#8⟩)) (fun t => decide (t.phase = .guardAcq)) = true := by decide
/-- Q10: 0xC0 is not, and the second read of BOUNDED 2 finishes TIMEOUT. -/
theorem test_poll_timeout : ran (exec .phasePoll { withRegs (machineAt .poll (cmd .na)) ⟨0xC0#8, 0x06#8, 0#8, 0#8, 0#4, 0#8⟩ with cfg := { Config.reference with maxPoll := .bounded 2 }, pcnt := 1 })
    (fun t => decide (t.phase = .idle ∧ t.seqstat = 0x0E#8)) = true := by decide
/-- IG01. -/
theorem test_guard_acq : ran (exec .phaseGuardAcq { machineAt .guardAcq (cmd .na) with ie := true }) (fun t => decide (t.prior = true ∧ t.ie = false ∧ t.phase = .pwrClr)) = true := by decide
/-- W03: PRR0 0xFF becomes 0xFD. -/
theorem test_pwr_clr : ran (exec .phasePwrClr { machineAt .pwrClr (cmd .na) with pr := [(0x64, 0xFF#8)] }) (fun t => decide (t.prOf 0x64 = 0xFD#8 ∧ t.phase = .modeSel)) = true := by decide
/-- W05: bit 2 of PRR1 is already 0, so unit 3 keeps its registers. -/
theorem test_pwr_clr_idempotent : ran (exec .phasePwrClr { machineAt .pwrClr ⟨3#4, .na, .one, .eight, .none, 9600#32⟩ with pr := [(0x65, 0x03#8)], units := [(3, ⟨0x42#8, 1#8, 2#8, 3#8, 4#4, 0#8⟩)] })
    (fun t => decide (t.prOf 0x65 = 0x03#8 ∧ t.regsOf 3 = ⟨0x42#8, 1#8, 2#8, 3#8, 4#4, 0#8⟩)) = true := by decide
/-- M06: POL is kept. -/
theorem test_mode_sel_keeps_pol : ran (exec .phaseModeSel (withRegs (machineAt .modeSel (cmd .ms)) ⟨0x42#8, 0x07#8, 0#8, 0#8, 0#4, 0#8⟩)) (fun t => decide ((t.regsOf 0).ctrla = 0x47#8)) = true := by decide
/-- M01: a reserved code a host wrote is replaced by 00. -/
theorem test_mode_sel_async : ran (exec .phaseModeSel (modeStart .modeSel .na)) (fun t => decide ((t.regsOf 0).ctrla = 0x00#8)) = true := by decide
/-- M05: TC and RIP are kept, DS is cleared. -/
theorem test_ds_write_keeps_flags : ran (exec .phaseDsWrite (withRegs (machineAt .dsWrite (cmd .na)) ⟨0xC2#8, 0#8, 0#8, 0#8, 0#4, 0#8⟩)) (fun t => decide ((t.regsOf 0).status = 0xC0#8 ∧ t.phase = .divHi)) = true := by decide
/-- M02: DS is 1 in DA. -/
theorem test_ds_write_double : ran (exec .phaseDsWrite (withRegs (machineAt .dsWrite (cmd .da)) ⟨0x40#8, 0#8, 0#8, 0#8, 0#4, 0#8⟩)) (fun t => decide ((t.regsOf 0).status = 0x42#8)) = true := by decide
/-- M04: PE2 (pin 34) becomes an input and the divisor phases are skipped. -/
theorem test_xck_dir_slave : ran (exec .phaseXckDir (modeStart .xckDir .ss)) (fun t => decide (t.dirOf 34 = .input ∧ t.phase = .frmSizeLo)) = true := by decide
/-- M03. -/
theorem test_xck_dir_master : ran (exec .phaseXckDir (machineAt .xckDir (cmd .ms))) (fun t => decide (t.dirOf 34 = .output ∧ t.dirOf 33 = .input ∧ t.phase = .divHi)) = true := by decide
/-- M01 and M08: the high half is new, the low half old. -/
theorem test_div_hi : ran (exec .phaseDivHi (modeStart .divHi .na)) (fun t => decide ((t.regsOf 0).get .divh = 0x01#8 ∧ (t.regsOf 0).divl = 0xBC#8)) = true := by decide
/-- M01. -/
theorem test_div_lo : ran (exec .phaseDivLo (modeStart .divLo .na)) (fun t => decide ((t.regsOf 0).divl = 0x23#8 ∧ (t.regsOf 0).divh = 0xA#4)) = true := by decide
/-- F13: 7 bits is SZLO = 10; the other bits of CTRLA are kept. -/
theorem test_frm_size_lo : ran (exec .phaseFrmSizeLo (withRegs (machineAt .frmSizeLo ⟨0#4, .na, .one, .seven, .none, 9600#32⟩) ⟨0x40#8, 0xF9#8, 0#8, 0#8, 0#4, 0#8⟩)) (fun t => decide ((t.regsOf 0).ctrla = 0xFD#8)) = true := by decide
/-- F34: IEN is kept. -/
theorem test_frm_size_hi_nine : ran (exec .phaseFrmSizeHi (withRegs (machineAt .frmSizeHi (cmd .na)) ⟨0x40#8, 0#8, 0xE0#8, 0#8, 0#4, 0#8⟩)) (fun t => decide ((t.regsOf 0).ctrlb = 0xE4#8)) = true := by decide
/-- F32: size 8 after size 9 clears SZHI. -/
theorem test_frm_size_hi_eight : ran (exec .phaseFrmSizeHi (withRegs (machineAt .frmSizeHi ⟨0#4, .na, .one, .eight, .none, 9600#32⟩) ⟨0x40#8, 0#8, 0x1C#8, 0#8, 0#4, 0#8⟩)) (fun t => decide ((t.regsOf 0).ctrlb = 0x18#8)) = true := by decide
/-- F23: ODD is 11 in the register, 10 in the command word. -/
theorem test_frm_parity_odd : ran (exec .phaseFrmParity (withRegs (machineAt .frmParity (cmd .na)) ⟨0x40#8, 0x07#8, 0#8, 0#8, 0#4, 0#8⟩)) (fun t => decide ((t.regsOf 0).ctrla = 0x37#8)) = true := by decide
/-- F21: EVEN is 10. -/
theorem test_frm_parity_even : ran (exec .phaseFrmParity (withRegs (machineAt .frmParity ⟨0#4, .na, .one, .eight, .even, 9600#32⟩) ⟨0x40#8, 0x06#8, 0#8, 0#8, 0#4, 0#8⟩)) (fun t => decide ((t.regsOf 0).ctrla = 0x26#8)) = true := by decide
/-- F26. -/
theorem test_frm_stop : ran (exec .phaseFrmStop (withRegs (machineAt .frmStop (cmd .na)) ⟨0x40#8, 0x06#8, 0#8, 0#8, 0#4, 0#8⟩)) (fun t => decide ((t.regsOf 0).ctrla = 0x0E#8 ∧ t.phase = .guardRel)) = true := by decide
/-- IG01 and S09: IE is PRIOR again, REJECT survives. -/
theorem test_guard_rel : ran (exec .phaseGuardRel { machineAt .guardRel (cmd .na) with prior := true, reject := .busy }) (fun t => decide (t.ie = true ∧ t.seqstat = 0x22#8)) = true := by decide

/-! ## A word placed where the next step takes it -/

/-- E01 as the first instruction after reset. -/
theorem test_fetch_init : ran (step (State.reset.withFetchWord 64 0x0000258010100000)) (fun t => decide (t.phase = .resolve ∧ t.sched = [])) = true := by decide
theorem test_fetch_stat : ran (step (State.reset.withFetchWord 0 0)) (fun t => decide (t.statOut = 0x00#8 ∧ t.sched = [])) = true := by decide
/-- B03: DIVL of unit 0. -/
theorem test_fetch_bus_wr : ran (step (State.reset.withFetchWord 25 0x100C467)) (fun t => decide ((t.regsOf 0).divl = 0x67#8)) = true := by decide
theorem test_fetch_phase : ran (step (State.reset.withFetchWord 8 0b0001)) (fun t => decide (t.phase = .validate)) = true := by decide

/-! ## Agents -/

/-- IG08: MAIN writes IE while PHASE = POLL. -/
theorem test_main_ie_hazard : ran (step { machineAt .poll (cmd .na) with ie := true, sched := [.host .main (.ieWrite false)] })
    (fun t => decide (t.faults = [.hostHazard .ieWrite] ∧ t.ie = true)) = true := by decide
/-- B11: ISR writes CTRLA of the unit being configured before the guard. -/
theorem test_isr_before_guard : ran (step { machineAt .poll (cmd .na) with ie := true, sched := [.host .isr (.bus true 0x00C2#32 0x00#8)] })
    (fun t => decide ((t.regsOf 0).ctrla = 0x00#8 ∧ t.faults = [])) = true := by decide
/-- B09: MAIN reads the unit being configured. -/
theorem test_main_unit_hazard : ran (step { machineAt .poll (cmd .na) with sched := [.host .main (.bus false 0x00C0#32 0x00#8)] })
    (fun t => decide (t.faults = [.hostHazard .unitAccess])) = true := by decide
/-- R12: LINE writes TC and RIP only. -/
theorem test_line : ran (step { State.reset with sched := [.line 1 true false] }) (fun t => decide ((t.regsOf 1).status = 0x60#8)) = true := by decide
/-- R111: a set with no unit, or with F_OSC = 0, is invalid. -/
theorem test_bad_params : paramsValid { Config.reference with table := [] } = false ∧ paramsValid { Config.reference with fOsc := 0 } = false := by decide
/-- R17 (b): overlapping windows are invalid. -/
theorem test_overlap_params :
    paramsValid { Config.reference with table := [Config.referenceUnit 0x00C0 0x64 1 34 33 32, Config.referenceUnit 0x00C4 0x65 0 29 27 26] } = false := by decide

/-- R126: idle is no end of a run while the host has a step to take; a turn of ISR with IE = 0 is none. -/
theorem test_run_ended :
    State.reset.GoodFinal ∧ State.RunEnded { State.reset with sched := [.host .isr .cmdRead, .line 0 true false] } ∧
      ¬ State.RunEnded { State.reset with sched := [.host .main (.cmdWrite 0x0000258010100000#64)] } ∧
      ¬ State.RunEnded { State.reset with ie := true, sched := [.host .isr (.bus true 0x00C1#32 0x18#8)] } := by
  refine ⟨⟨⟨rfl, fun a act h => ?_⟩, rfl⟩, ⟨rfl, fun a act h => ?_⟩, fun h => ?_, fun h => ?_⟩
  · cases h
  · simp only [List.mem_cons, Turn.host.injEq, List.not_mem_nil, or_false, reduceCtorEq] at h
    obtain ⟨rfl, rfl⟩ := h; rfl
  · have := h.2 .main _ List.mem_cons_self; simp [State.hostEnabled] at this
  · have := h.2 .isr _ List.mem_cons_self; simp [State.hostEnabled] at this

/-! ## Witnesses: concrete states and operands that meet all the hypotheses of a statement together -/

theorem reference_valid : paramsValid Config.reference = true := by decide

/-- The reference instantiation with MAX_POLL = BOUNDED n. -/
def bounded (n : Nat) : Params := { Config.reference with maxPoll := .bounded n }

theorem bounded_valid : paramsValid (bounded 1) = true ∧ paramsValid (bounded 2) = true := by decide

/-- Record of unit 0 of the reference instantiation. -/
def unit0 : UnitDesc := Config.referenceUnit 0x00C0 0x64 1 34 33 32

/-- The record of unit 3. -/
def unit3 : UnitDesc := Config.referenceUnit 0x0130 0x65 2 74 73 72

theorem unit0_resolved (s : State) (h : s.cfg = Config.reference) (h' : s.lat.unit = 0#4) : resolve s.cfg s.lat.unit.toNat = some unit0 := by
  rw [h, h']; decide

/-- Legal words and operands at the ends of SIZE, UNIT and BAUD; the top address of the bus. -/
theorem witness_DecodeInvertsEncode :
    Instr.wf 16 (.init 0#4 .na .one 5#4 0b00#2 1#32) = true ∧ Instr.wf 16 (.init 15#4 .ss .two 9#4 0b10#2 0xFFFFFFFF#32) = true ∧
      Instr.wf 16 (.busRd 0xFFFF#32) = true ∧ Instr.wf 16 (.busWr 0x0000#32 0xFF#8) = true ∧ Instr.wf 16 .stat = true ∧ Instr.wf 16 .phaseGuardRel = true := by decide

/-- A value kept whole, and a read whose DATA is dropped. -/
theorem witness_EncodeInvertsDecode :
    decode 16 (.cmd64 0xFFFFFFFF102B0000#64) = .ok (.init 0#4 .na .two 5#4 0b10#2 0xFFFFFFFF#32) ∧
      decode 16 (.bustx false 0xFFFF#32 0x99#8) = .ok (.busRd 0xFFFF#32) := by decide

/-- Busy (ISR, IE = 1), illegal (MAIN; E12), legal (E01). -/
theorem witness_CommandWriteAcceptsOrRejects :
    ((machineAt .resolve (cmd .na)).phase ≠ .idle ∧ { machineAt .resolve (cmd .na) with ie := true }.ie = true) ∧
      (State.reset.phase = .idle ∧ ¬ LegalWord 0x0000258010118000#64) ∧
      { State.reset with sched := [.host .main (.cmdWrite 0x0000258010100000#64)] }.sched = [.host .main (.cmdWrite 0x0000258010100000#64)] ∧
      LegalWord 0x0000258010100000#64 ∧ paramsValid State.reset.cfg = true := by
  unfold LegalWord; decide

/-- Each clause: busy; SIZE 4, SIZE 10, PAR 11, BAUD 0; SIZE 5 and 9 with BAUD 1. -/
theorem witness_InitAcceptsOrRejects :
    (machineAt .guardRel (cmd .na)).phase ≠ .idle ∧ State.reset.phase = .idle ∧ (4#4).toNat < 5 ∧ 9 < (10#4).toNat ∧
      (5 ≤ (5#4).toNat ∧ (5#4).toNat ≤ 9 ∧ 5 ≤ (9#4).toNat ∧ (9#4).toNat ≤ 9 ∧ 0b10#2 ≠ 0b11#2 ∧ 1#32 ≠ 0#32) := by decide

theorem witness_AddressNamesOneRegister : paramsValid Config.reference = true ∧ locate Config.reference 0x0136 = some (3, .data) := by decide

/-- B07 and the address just above unit 0's window. -/
theorem witness_UnmappedAccessFaults :
    locate Config.reference 0x00C3 = none ∧ ∀ a ∈ [0x00C3, 0x00C7, 0x00BF], ∀ d ∈ Config.reference.table, ∀ r ∈ Reg.all, addressOf d r ≠ a := by decide

theorem witness_BusyUnitAccessFaults :
    paramsValid (machineAt .resolve (cmd .na)).cfg = true ∧ resolve (machineAt .resolve (cmd .na)).cfg (machineAt .resolve (cmd .na)).lat.unit.toNat = some unit0 ∧
      (0x00C6#32).toNat = addressOf unit0 .data ∧ (machineAt .resolve (cmd .na)).agent = .main ∧ (machineAt .resolve (cmd .na)).phase ≠ .idle := by decide

/-- Unit 0 gated in a busy machine and read by ISR; unit 3 powered and read by MAIN in an idle one. -/
theorem witness_BusReadReturnsRegister :
    (State.gated { machineAt .poll (cmd .na) with agent := .isr, pr := [(0x64, 0x02#8)] } 0 = true ∧ resolve Config.reference 0 = some unit0 ∧ (0x00C0#32).toNat = addressOf unit0 .status ∧
      ¬(HostAgent.isr = .main)) ∧
    (State.reset.gated 3 = false ∧ resolve Config.reference 3 = some unit3 ∧ (0x0135#32).toNat = addressOf unit3 .divh ∧ ¬(State.reset.phase ≠ .idle) ∧
      paramsValid State.reset.cfg = true) := by decide

/-- The same states, STATUS and DATA as the registers. -/
theorem witness_BusWriteStoresRegister :
    (State.gated { machineAt .poll (cmd .na) with agent := .isr, pr := [(0x64, 0x02#8)] } 0 = true ∧ (0x00C6#32).toNat = addressOf unit0 .data ∧ ¬(HostAgent.isr = .main)) ∧
    (State.reset.gated 3 = false ∧ resolve Config.reference 3 = some unit3 ∧ (0x0130#32).toNat = addressOf unit3 .status ∧ ¬(State.reset.phase ≠ .idle) ∧
      paramsValid State.reset.cfg = true) := by decide

/-- Ids 4 and 3 of four units. -/
theorem witness_ResolveChecksUnit : Config.reference.nUnits ≤ (4#4).toNat ∧ (3#4).toNat < Config.reference.nUnits := by decide

/-- SS; and q = 0 (DV13), q = 1 (DV12), q = 4096 (DV27) and q = 4098 (DV16) at 16 MHz. -/
theorem witness_ValidateChecksDivisor :
    (cmd .ss).mode = .ss ∧ Mult .na 16 ∧ Mult .ms 2 ∧ 16000000 / (16 * (1000001#32).toNat) = 0 ∧ 16000000 / (16 * (1000000#32).toNat) = 1 ∧
      16000000 / (2 * (1953#32).toNat) = 4096 ∧ 4096 < 16000000 / (16 * (244#32).toNat) ∧ 244#32 ≠ 0#32 := by
  unfold Mult; decide

theorem witness_DivisorClosedForm : 0 < 16 * 1 ∧ (4096 * (16 * 1) ≤ 65551 ∧ 65551 < 4097 * (16 * 1)) ∧ 4097 * (16 * 1) ≤ 65552 ∧ 15 < 16 * 1 := by decide

/-- DV19 and the least quotient. -/
theorem witness_DivisorIsExactFloor : 0 < 16 * 1 ∧ divisor 65551 16 1 = some 4095#12 ∧ divisor 16 16 1 = some 0#12 := by decide

/-- A quiescent read of a powered unit; a read that is not, at the last of BOUNDED 2 and before it; a gated unit. -/
theorem witness_PollReadsStatusOnce :
    resolve (machineAt .poll (cmd .na)).cfg (machineAt .poll (cmd .na)).lat.unit.toNat = some unit0 ∧ (machineAt .poll (cmd .na)).gated 0 = false ∧
      State.gated { machineAt .poll (cmd .na) with pr := [(0x64, 0x02#8)] } 0 = true ∧ (0x60#8).getLsbD unit0.posTC.val = true ∧
      (0x60#8).getLsbD unit0.posRIP.val = false ∧ (0xC0#8).getLsbD unit0.posRIP.val = true ∧ Config.reference.maxPoll = .unbounded ∧ (bounded 2).maxPoll = .bounded 2 ∧ 1 + 1 = 2 ∧ 0 + 1 ≠ 2 := by decide

/-- W01 and W02. -/
theorem witness_PowerClearUngatesUnit :
    paramsValid (machineAt .pwrClr (cmd .na)).cfg = true ∧ resolve (machineAt .pwrClr (cmd .na)).cfg (machineAt .pwrClr (cmd .na)).lat.unit.toNat = some unit0 ∧
      State.gated { machineAt .pwrClr (cmd .na) with pr := [(0x64, 0x02#8)] } 0 = true ∧ (machineAt .pwrClr (cmd .na)).gated 0 = false := by decide

theorem witness_UnresolvedUnitStops : State.reset.cfg.nUnits ≤ (machineAt .poll ⟨4#4, .na, .one, .eight, .none, 9600#32⟩).lat.unit.toNat := by decide

/-- A step out of every phase, XCK_DIR in MS and in SS. -/
theorem witness_PhasesFollowTransitionTable :
    (∀ p ∈ [Phase.idle, .resolve, .validate, .poll, .guardAcq, .pwrClr, .modeSel, .dsWrite, .xckDir, .divHi, .divLo, .frmSizeLo, .frmSizeHi, .frmParity, .frmStop, .guardRel],
      ran (exec p.instr (machineAt p (cmd .ms))) (fun _ => true) = true) ∧
    ran (exec .phaseXckDir (machineAt .xckDir (cmd .ss))) (fun t => decide (t.phase = .frmSizeLo)) = true := by decide

/-- Each phase, finishing with its error. -/
theorem witness_ErrorPhasesTouchNoRegister :
    ran (exec .phaseResolve (machineAt .resolve ⟨15#4, .na, .one, .eight, .none, 9600#32⟩)) (fun t => decide (t.phase = .idle)) = true ∧
      ran (exec .phaseValidate (machineAt .validate ⟨0#4, .na, .one, .eight, .none, 1000001#32⟩)) (fun t => decide (t.phase = .idle)) = true ∧
      ran (exec .phasePoll { machineAt .poll (cmd .na) with cfg := bounded 1 }) (fun t => decide (t.phase = .idle)) = true := by decide

/-- ModeSelWritesClockSource, DsWriteSetsDoubleSpeed, DivisorHalvesWritten, FrameSizeWritten and FrameParityAndStopWritten: in
every mode and phase unit 0 has a record. -/
theorem witness_FieldPhases (m : Mode) (p : Phase) : resolve (machineAt p (cmd m)).cfg (machineAt p (cmd m)).lat.unit.toNat = some unit0 := unit0_resolved _ rfl rfl

/-- The same statements, the unit gated and powered. -/
theorem witness_FieldPhasesGated :
    State.gated { machineAt .modeSel (cmd .na) with pr := [(0x64, 0x02#8)] } 0 = true ∧ (machineAt .modeSel (cmd .na)).gated 0 = false := by decide

theorem witness_XckDirDrivesClockLine :
    resolve (machineAt .xckDir (cmd .ms)).cfg (machineAt .xckDir (cmd .ms)).lat.unit.toNat = some unit0 ∧ (machineAt .xckDir (cmd .ms)).lat.mode = .ms ∧
      (machineAt .xckDir (cmd .ss)).lat.mode = .ss := by decide

theorem witness_XckDirIdleInAsyncModes :
    resolve (machineAt .xckDir (cmd .da)).cfg (machineAt .xckDir (cmd .da)).lat.unit.toNat = some unit0 ∧ (machineAt .xckDir (cmd .da)).lat.mode = .da := by decide

theorem witness_FrameWritesCommute : unitValid 16 unit0 = true ∧ (⟨.ctrla, 1, 2⟩ : RegField) ∈ frameFields unit0 ∧ (⟨.ctrla, 4, 2⟩ : RegField) ∈ frameFields unit0 ∧
    (⟨.ctrla, 1, 2⟩ : RegField) ≠ ⟨.ctrla, 4, 2⟩ := by decide

/-- Each clause: an empty schedule, SEQ's turn, and each port value in MAIN's turn; ISR's with IE = 1. -/
theorem witness_StepRunsDecodedInstruction :
    paramsValid State.reset.cfg = true ∧ State.reset.sched = [] ∧ decode State.reset.cfg.addrW (.phase4 Phase.idle.code) = .ok .phaseIdle ∧
      { State.reset with sched := [.seq] }.sched = [.seq] ∧ decode State.reset.cfg.addrW (.cmd64 0x0000258010100000#64) = .ok (.init 0#4 .na .one 8#4 0b00#2 9600#32) ∧
      { State.reset with sched := [.host .main .cmdRead] }.sched = [.host .main .cmdRead] ∧ decode State.reset.cfg.addrW .cmdRd = .ok .stat ∧
      { State.reset with ie := true, sched := [.host .isr (.bus true 0xFFFF#32 0#8)] }.ie = true ∧ decode State.reset.cfg.addrW (.bustx true 0xFFFF#32 0#8) = .ok (.busWr 0xFFFF#32 0#8) := by decide

/-- IE = 0; and a write of IE by ISR with IE = 1. -/
theorem witness_IsrTurnPassesWhenMasked :
    paramsValid State.reset.cfg = true ∧ { State.reset with sched := [.host .isr .cmdRead] }.sched = [.host .isr .cmdRead] ∧ State.reset.ie = false ∧
      HostAct.ieWrite true = .ieWrite true := by decide

/-- Unit 0 as an `INIT u0, MS, 9600, 1, 8, NONE` leaves it at GUARD_REL (DV06, M03, F19), IE having been 1. -/
def released : State :=
  { withRegs (machineAt .guardRel ⟨0#4, .ms, .one, .eight, .none, 9600#32⟩) ⟨0x40#8, 0x46#8, 0#8, 0x40#8, 3#4, 0#8⟩ with
    divq := 832#12, dir := [(34, .output)], prior := true }

theorem released_seqInv : released.SeqInv := by
  refine ⟨by decide, by intro _; decide, by decide, by decide, rfl, ?_, fun _ => rfl⟩
  intro _ m h
  have e : m = 2 := by simpa [released, withRegs, machineAt, multiplier] using h.symm
  subst e; decide

theorem released_configured : released.Configured := by
  intro d hd
  have e : d = unit0 := by
    have h := unit0_resolved released rfl rfl
    rw [hd] at h; exact Option.some.inj h
  subst e
  refine ⟨fun _ => by decide, fun _ => by decide, fun _ => by decide, fun _ x hx => ?_, fun _ _ => by decide, fun _ _ => by decide, fun _ => by decide, fun _ => by decide,
    fun _ => by decide, fun _ => by decide⟩
  have e : x = .output := by simpa [released, withRegs, machineAt, xckDirection] using hx.symm
  subst e; decide

theorem witness_NoHandlerStepUnderGuard :
    paramsValid released.cfg = true ∧ released.SeqInv ∧ released.Guarded ∧ { released with sched := [.host .isr .cmdRead] }.sched = [.host .isr .cmdRead] :=
  ⟨by decide, released_seqInv, by unfold State.Guarded; decide, rfl⟩

theorem witness_LineSetsTransferFlags :
    paramsValid State.reset.cfg = true ∧ { State.reset with sched := [.line 0 true true] }.sched = [.line 0 true true] ∧ resolve State.reset.cfg 0 = some unit0 := by decide

/-- Idle, and busy. -/
theorem witness_MainWritesInterruptEnable :
    paramsValid State.reset.cfg = true ∧ { State.reset with sched := [.host .main (.ieWrite true)] }.sched = [.host .main (.ieWrite true)] ∧ State.reset.phase = .idle ∧
      (machineAt .resolve (cmd .na)).phase ≠ .idle := by decide

theorem witness_BusyCollaboratorWritesFault :
    paramsValid (machineAt .poll (cmd .na)).cfg = true ∧ (machineAt .poll (cmd .na)).phase ≠ .idle ∧
      resolve (machineAt .poll (cmd .na)).cfg (machineAt .poll (cmd .na)).lat.unit.toNat = some unit0 ∧
      { machineAt .poll (cmd .na) with sched := [.host .main (.prWrite unit0.prId 0#8)] }.sched = [.host .main (.prWrite 0x64 0#8)] ∧
      { machineAt .poll (cmd .na) with sched := [.host .main (.dirWrite unit0.xckPin .output)] }.sched = [.host .main (.dirWrite 34 .output)] := by decide

/-- W04: PRR1 0x07 becomes 0x05, which ungates unit 2 and leaves units 1 and 3. -/
theorem witness_HostPowerWriteUngates :
    paramsValid State.reset.cfg = true ∧ resolve Config.reference 2 = some (Config.referenceUnit 0x00D0 0x65 1 58 57 56) ∧ State.reset.phase = .idle ∧
      State.ungates { State.reset with pr := [(0x65, 0x07#8)] } 0x65 0x05#8 2 = true ∧ State.ungates { State.reset with pr := [(0x65, 0x07#8)] } 0x65 0x05#8 3 = false := by decide

theorem witness_HostDirectionWriteStores :
    paramsValid State.reset.cfg = true ∧ resolve State.reset.cfg 0 = some unit0 ∧ unit0.rxdPin = 32 ∧ State.reset.phase = .idle ∧
      { State.reset with sched := [.host .main (.dirWrite 32 .output)] }.sched = [.host .main (.dirWrite 32 .output)] := by decide

/-- MAIN writes PRR1 while unit 0, whose register is PRR0, is configured. -/
theorem witness_MainCannotDisturbCommand :
    ran (step { machineAt .poll (cmd .na) with sched := [.host .main (.prWrite 0x65 0x07#8)] }) (fun t => decide (t.prOf 0x65 = 0x07#8)) = true ∧
      (machineAt .poll (cmd .na)).phase ≠ .idle ∧ resolve (machineAt .poll (cmd .na)).cfg (machineAt .poll (cmd .na)).lat.unit.toNat = some unit0 := by decide

theorem witness_ResetInputAbandonsCommand :
    paramsValid (machineAt .divLo (cmd .na)).cfg = true ∧ { machineAt .divLo (cmd .na) with sched := [.reset] }.sched = [.reset] ∧ 3 < (machineAt .divLo (cmd .na)).cfg.nUnits := by decide

/-- An invalid set; and one whose windows overlap at 0x00C4 (STATUS of the second, DIVL of the first). -/
theorem witness_BadConfigurationIsRefused :
    paramsValid { Config.reference with maxPoll := .bounded 0 } = false ∧ resolve { Config.reference with table := [unit0, Config.referenceUnit 0x00C4 0x65 0 29 27 26] } 0 = some unit0 ∧
      resolve { Config.reference with table := [unit0, Config.referenceUnit 0x00C4 0x65 0 29 27 26] } 1 = some (Config.referenceUnit 0x00C4 0x65 0 29 27 26) ∧
      addressOf unit0 .divl = addressOf (Config.referenceUnit 0x00C4 0x65 0 29 27 26) .status := by decide

/-- Whatever satisfies `ran` answers a next state. -/
theorem ran_next {o : Host.Outcome State Fault Refusal} {p : State → Bool} (h : ran o p = true) : ∃ t, o = .next t := by
  cases o with
  | next t => exact ⟨t, rfl⟩
  | fault r => simp [ran] at h
  | refused r => simp [ran] at h

theorem released_steps : ∃ t, step released = .next t := ran_next (p := fun _ => true) (by decide)

theorem witness_StepKeepsCanonicalForm : released.Canonical ∧ ∃ t, step released = .next t :=
  ⟨by unfold State.Canonical; decide, released_steps⟩

theorem witness_StepKeepsSequencerInvariant : released.SeqInv ∧ ∃ t, step released = .next t := ⟨released_seqInv, released_steps⟩

theorem witness_StepKeepsConfiguredFields : released.SeqInv ∧ released.Configured ∧ ∃ t, step released = .next t :=
  ⟨released_seqInv, released_configured, released_steps⟩

theorem witness_ResetMeetsInvariants :
    Store.Wf UnitRegs.unlisted Undetermined.named.units ∧ Store.Wf prUnlisted Undetermined.named.pr ∧ Store.Wf dirUnlisted Undetermined.named.dir ∧
      (State.resetWith (bounded 2) Undetermined.named).PollInRange := by
  refine ⟨by decide, by decide, by decide, ?_⟩
  unfold State.PollInRange; simp only [State.resetWith, bounded]; decide

theorem witness_GuardReleaseDeliversConfiguration :
    released.SeqInv ∧ released.Configured ∧ released.phase = .guardRel ∧ resolve released.cfg released.lat.unit.toNat = some unit0 :=
  ⟨released_seqInv, released_configured, rfl, unit0_resolved _ rfl rfl⟩

theorem witness_NoStepClearsFault :
    (∀ rest, { released with faults := [.hostHazard .ieWrite] }.sched ≠ .reset :: rest) ∧
      ran (step { released with faults := [.hostHazard .ieWrite] }) (fun t => decide (t.faults = [.hostHazard .ieWrite])) = true :=
  ⟨fun rest h => by simp [released, withRegs, machineAt, State.reset, State.resetWith] at h, by decide⟩

theorem witness_ParametersNeverChange : ∃ t, step released = .next t := released_steps

/-- A SEQ step, a reset and an acceptance, each of which moves PHASE. -/
theorem witness_OnlySeqMovesPhase :
    ran (step released) (fun t => decide (t.phase ≠ released.phase)) = true ∧
      ran (step { released with sched := [.reset] }) (fun t => decide (t.phase ≠ released.phase)) = true ∧
      ran (step { State.reset with sched := [.host .main (.cmdWrite 0x0000258010100000#64)] }) (fun t => decide (t.phase ≠ .idle)) = true := by decide

/-- The step that ends the command, and one that does not. -/
theorem witness_GuardIsBalanced :
    released.SeqInv ∧ released.Guarded ∧ (∀ rest, released.sched ≠ .reset :: rest) ∧ ran (step released) (fun t => decide (t.phase = .idle)) = true ∧
      ran (step { released with sched := [.line 0 true false] }) (fun t => decide (t.phase ≠ .idle)) = true :=
  ⟨released_seqInv, by unfold State.Guarded; decide, fun rest h => by simp [released, withRegs, machineAt, State.reset, State.resetWith] at h, by decide, by decide⟩

theorem witness_SeqWritesOnlyItsFields :
    paramsValid (machineAt .frmSizeHi (cmd .na)).cfg = true ∧ resolve (machineAt .frmSizeHi (cmd .na)).cfg (machineAt .frmSizeHi (cmd .na)).lat.unit.toNat = some unit0 ∧
      (machineAt .frmSizeHi (cmd .na)).gated 0 = false ∧ ran (exec Phase.frmSizeHi.instr (machineAt .frmSizeHi (cmd .na))) (fun t => decide ((t.regsOf 0).ctrlb = 0x04#8)) = true := by decide

theorem witness_GuardedSequenceCompletes :
    paramsValid (machineAt .guardAcq (cmd .ss)).cfg = true ∧ (machineAt .guardAcq (cmd .ss)).sched = [] ∧ (machineAt .guardAcq (cmd .ss)).phase = .guardAcq ∧
      (machineAt .guardAcq (cmd .ss)).lat.unit.toNat < (machineAt .guardAcq (cmd .ss)).cfg.nUnits := by decide

/-- An idle machine whose unit 0 shows quiescence, with MAIN about to write `w`. -/
def quiet (w : CmdWord) : State := { withRegs State.reset ⟨0x60#8, 0x06#8, 0#8, 0#8, 0#4, 0#8⟩ with sched := [.host .main (.cmdWrite w)] }

/-- DV12: `INIT u0, NA, 1000000, 1, 5, NONE`, whose quotient is 1. -/
theorem witness_InitConfiguresQuietUnit :
    paramsValid (quiet (encodeInit 0#4 .na .one 5#4 0b00#2 1000000#32)).cfg = true ∧ (quiet (encodeInit 0#4 .na .one 5#4 0b00#2 1000000#32)).phase = .idle ∧
      (quiet (encodeInit 0#4 .na .one 5#4 0b00#2 1000000#32)).SeqInv ∧ (Instr.init 0#4 .na .one 5#4 0b00#2 1000000#32).wf 16 = true ∧
      resolve (quiet (encodeInit 0#4 .na .one 5#4 0b00#2 1000000#32)).cfg (0#4).toNat = some unit0 ∧
      (quiet (encodeInit 0#4 .na .one 5#4 0b00#2 1000000#32)).gated (0#4).toNat = false ∧
      ((quiet (encodeInit 0#4 .na .one 5#4 0b00#2 1000000#32)).regsOf (0#4).toNat).status.getLsbD unit0.posTC.val = true ∧
      ((quiet (encodeInit 0#4 .na .one 5#4 0b00#2 1000000#32)).regsOf (0#4).toNat).status.getLsbD unit0.posRIP.val = false ∧
      (∀ m, Mult .na m → 1 ≤ 16000000 / (m * (1000000#32).toNat) ∧ 16000000 / (m * (1000000#32).toNat) ≤ 4096) := by
  refine ⟨by decide, by decide, ⟨by decide, ?_, by decide, by decide, rfl, ?_, fun _ => rfl⟩, by decide, by decide, by decide, by decide, by decide, ?_⟩
  · intro h; exact absurd h (by unfold State.Past; decide)
  · intro h; exact absurd h (by unfold State.Past; decide)
  · rintro m (⟨-, rfl⟩ | ⟨h, -⟩ | ⟨h, -⟩)
    · decide
    · cases h
    · cases h

/-- Q06: BOUNDED 1 and 0x80. -/
theorem witness_BoundedPollTimesOut :
    paramsValid { withRegs (machineAt .poll (cmd .na)) ⟨0x80#8, 0#8, 0#8, 0#8, 0#4, 0#8⟩ with cfg := bounded 1 }.cfg = true ∧
      (machineAt .poll (cmd .na)).sched = [] ∧ (machineAt .poll (cmd .na)).phase = .poll ∧ (machineAt .poll (cmd .na)).pcnt = 0 ∧ (bounded 1).maxPoll = .bounded 1 ∧
      resolve (bounded 1) (cmd .na).unit.toNat = some unit0 ∧ State.gated { withRegs (machineAt .poll (cmd .na)) ⟨0x80#8, 0#8, 0#8, 0#8, 0#4, 0#8⟩ with cfg := bounded 1 } 0 = false ∧
      (0x80#8).getLsbD unit0.posTC.val = false ∧ (0x80#8).getLsbD unit0.posRIP.val = true := by decide

/-- Q08: UNBOUNDED and 0x00. -/
theorem witness_UnboundedPollBlocks :
    paramsValid (machineAt .poll (cmd .na)).cfg = true ∧ (machineAt .poll (cmd .na)).sched = [] ∧ (machineAt .poll (cmd .na)).phase = .poll ∧
      (machineAt .poll (cmd .na)).cfg.maxPoll = .unbounded ∧ resolve (machineAt .poll (cmd .na)).cfg (machineAt .poll (cmd .na)).lat.unit.toNat = some unit0 ∧
      (machineAt .poll (cmd .na)).gated 0 = false ∧ ((machineAt .poll (cmd .na)).regsOf 0).status.getLsbD unit0.posTC.val = false := by decide

end Sys2Proof.Tests
end

section
/-! PROOFS. The agents' turns: what a step does for each turn of the schedule, LINE, host writes of a direction, and the parameters. -/

namespace Sys2Proof.Proofs

open Sys2Proof.Machine Sys2Proof.Laws

/-! ## One step, by whose turn it is -/

section Turns

variable {s : State} {rest : List Turn}

/-- A step with a turn left takes it off the schedule. -/
theorem step_of_sched_cons {x : Turn} (hv : paramsValid s.cfg = true) (hs : s.sched = x :: rest) :
    step s = takeTurn x { s with sched := rest } := by
  rw [step_of_valid hv, nextTurn, hs]

/-- SEQ moves when no turn is left (00_scope.md R10; log 1). -/
theorem step_of_sched_nil (hv : paramsValid s.cfg = true) (hs : s.sched = []) : step s = exec s.phase.instr s := by
  rw [step_of_valid hv, nextTurn, hs]
  exact seqStep_eq s

theorem step_of_seq_turn (hv : paramsValid s.cfg = true) (hs : s.sched = .seq :: rest) :
    step s = exec s.phase.instr { s with sched := rest } := by
  rw [step_of_sched_cons hv hs]
  exact seqStep_eq _

/-- MAIN always has its step; ISR when IE = 1, and never a write of IE (00_scope.md R11). -/
theorem hostEnabled_iff (s : State) (a : HostAgent) (act : HostAct) :
    s.hostEnabled a act = true ↔ a = .main ∨ (s.ie = true ∧ ∀ b, act ≠ .ieWrite b) := by
  cases a with
  | main => simp [State.hostEnabled]
  | isr => cases act <;> simp [State.hostEnabled]

theorem step_of_enabled_turn {a : HostAgent} {act : HostAct} (hv : paramsValid s.cfg = true)
    (hs : s.sched = .host a act :: rest) (he : s.hostEnabled a act = true) :
    step s = hostAct act { s with sched := rest, agent := a } := by
  rw [step_of_sched_cons hv hs]
  exact if_pos he

/-- The turn of an agent without an enabled step passes (log 2). -/
theorem step_of_disabled_turn {a : HostAgent} {act : HostAct} (hv : paramsValid s.cfg = true)
    (hs : s.sched = .host a act :: rest) (he : ¬ s.hostEnabled a act = true) :
    step s = .next { s with sched := rest } := by
  rw [step_of_sched_cons hv hs]
  exact if_neg he

theorem step_of_line_turn {u : Nat} {tc rip : Bool} {d : UnitDesc} (hv : paramsValid s.cfg = true)
    (hs : s.sched = .line u tc rip :: rest) (hd : resolve s.cfg u = some d) :
    step s = .next (State.lineWrite { s with sched := rest } u d tc rip) := by
  rw [step_of_sched_cons hv hs]
  simp [takeTurn, lineStep, hd]

end Turns

theorem runWord_of_decode (s : State) {p : PortWord} {i : Instr} (h : decode s.cfg.addrW p = .ok i) : runWord p s = exec i s := by
  simp [runWord, h]

/-! ## The decoded instruction, and ISR's turns -/

/-- Settles O34: the turn is inverted first; then the interface has one format, whose word is decoded. -/
theorem stepRunsDecodedInstruction : Obligations.StepRunsDecodedInstruction := by
  intro s i rest a hv
  refine ⟨fun hs hd => ?_, fun hs hd => ?_, fun ha => ?_⟩
  · obtain rfl : s.phase.instr = i := by simpa using hd
    exact step_of_sched_nil hv hs
  · obtain rfl : s.phase.instr = i := by simpa using hd
    exact step_of_seq_turn hv hs
  · have enabled : ∀ act, (∀ b, act ≠ .ieWrite b) → s.hostEnabled a act = true := fun act hact =>
      (hostEnabled_iff s a act).mpr (ha.imp_right fun hie => ⟨hie, hact⟩)
    refine ⟨fun w hs hd => ?_, fun hs hd => ?_, fun we addr v hs hd => ?_⟩
    all_goals
      rw [step_of_enabled_turn hv hs (enabled _ (by simp)), hostAct]
      exact runWord_of_decode _ hd

/-- Settles O35: such a turn is not enabled. -/
theorem isrTurnPassesWhenMasked : Obligations.IsrTurnPassesWhenMasked := by
  intro s act rest hv hs hmask
  refine step_of_disabled_turn hv hs fun he => ?_
  obtain hmain | ⟨hie, hact⟩ := (hostEnabled_iff s .isr act).mp he
  · cases hmain
  · obtain hoff | ⟨b, hb⟩ := hmask
    · simp [hoff] at hie
    · exact hact b hb

/-! ## LINE -/

/-- Every record of a valid table is valid by itself (10_state.md R17). -/
theorem unitValid_of_resolve {p : Params} {u : Nat} {d : UnitDesc} (hv : paramsValid p = true)
    (hd : resolve p u = some d) : unitValid p.addrW d = true := by
  simp only [paramsValid, Bool.and_eq_true, List.all_eq_true] at hv
  obtain ⟨⟨-, hall⟩, -⟩ := hv
  exact hall d (List.mem_of_getElem? hd)

/-- TC and RIP are different bits of STATUS (10_state.md R17 (c)). -/
theorem posTC_ne_posRIP {addrW : Nat} {d : UnitDesc} (hd : unitValid addrW d = true) : d.posTC ≠ d.posRIP := by
  simp only [unitValid, Bool.and_eq_true, decide_eq_true_eq] at hd
  obtain ⟨⟨⟨-, hnodup⟩, -⟩, -⟩ := hd
  simp only [List.nodup_cons, List.mem_cons] at hnodup
  tauto

theorem lineWrite_regsOf (s : State) (u w : Nat) (d : UnitDesc) (tc rip : Bool) :
    (s.lineWrite u d tc rip).regsOf w =
      if w = u then (s.regsOf u).set .status (withLineBits d (s.regsOf u).status (lineByte d tc rip)) else s.regsOf w :=
  setRegs_regsOf s u w _

/-- LINE replaces the bits of TC and RIP in STATUS (00_scope.md R12). -/
theorem lineWrite_getLsbD_status (s : State) (u : Nat) (d : UnitDesc) (tc rip : Bool) (i : Nat) (hi : i < 8) :
    ((s.lineWrite u d tc rip).regsOf u).status.getLsbD i =
      if i = d.posTC.val ∨ i = d.posRIP.val then (lineByte d tc rip).getLsbD i else (s.regsOf u).status.getLsbD i := by
  rw [lineWrite_regsOf, if_pos rfl]
  exact getLsbD_withLineBits d _ _ i hi

/-- Settles O37: LINE replaces two different bits of one STATUS register. -/
theorem lineSetsTransferFlags : Obligations.LineSetsTransferFlags := by
  intro s u tc rip rest d hv hs hd
  obtain ⟨htc, hrip⟩ := getLsbD_lineByte d tc rip (posTC_ne_posRIP (unitValid_of_resolve hv hd))
  have hbit := lineWrite_getLsbD_status { s with sched := rest } u d tc rip
  refine ⟨_, step_of_line_turn hv hs hd, rfl, fun w hw => ?_, fun q hq => ?_, ?_, ?_, fun i hi hitc hirip => ?_⟩
  · rw [lineWrite_regsOf, if_neg hw]; rfl
  · rw [lineWrite_regsOf, if_pos rfl, get_set_other _ _ hq]; rfl
  · rw [hbit _ d.posTC.isLt, if_pos (.inl rfl), htc]
  · rw [hbit _ d.posRIP.isLt, if_pos (.inr rfl), hrip]
  · rw [hbit i hi, if_neg (not_or.mpr ⟨hitc, hirip⟩)]; rfl

/-! ## A host write of a GPIO direction -/

/-- Duty (d) of 60_exceptions.md R112: the clock pin of the unit a running command configures is not MAIN's to turn. -/
theorem breaksXckDuty_iff (s : State) (p : Nat) :
    s.breaksXckDuty p = true ↔
      s.agent = .main ∧ s.phase ≠ .idle ∧ ∃ d, resolve s.cfg s.lat.unit.toNat = some d ∧ d.xckPin = p := by
  cases hd : resolve s.cfg s.lat.unit.toNat with
  | none => simp [State.breaksXckDuty, hd]
  | some d => simp [State.breaksXckDuty, State.dutyBound, State.busy, hd, and_assoc]

theorem pinNamed_of_resolve {p : Params} {u pin : Nat} {d : UnitDesc} (hd : resolve p u = some d)
    (hpin : d.xckPin = pin ∨ d.txdPin = pin ∨ d.rxdPin = pin) : pinNamed p pin = true := by
  refine List.any_eq_true.mpr ⟨d, List.mem_of_getElem? hd, ?_⟩
  simpa [or_assoc] using hpin

/-- Outside the duty a host write of a named pin is set_direction (10_state.md R26). -/
theorem hostDirWrite_eq_setDirection {s : State} {p : Nat} (x : Dir) (hduty : ¬ s.breaksXckDuty p = true)
    (hpin : pinNamed s.cfg p = true) : s.hostDirWrite p x = s.setDirection p x := by
  rw [State.hostDirWrite, if_neg hduty, if_pos hpin]

/-- Settles O41: the write is enabled and breaks no duty, so it is set_direction of a named pin. -/
theorem hostDirectionWriteStores : Obligations.HostDirectionWriteStores := by
  intro s a p x rest hv ha hs ⟨u, d, hd, hpin⟩ hfree
  have henabled : s.hostEnabled a (.dirWrite p x) = true :=
    (hostEnabled_iff s a _).mpr (ha.imp_right fun hie => ⟨hie, by simp⟩)
  have hduty : ¬ State.breaksXckDuty { s with sched := rest, agent := a } p = true :=
    fun h => hfree ((breaksXckDuty_iff _ p).mp h)
  refine ⟨State.setDirection { s with sched := rest, agent := a } p x, ?_, rfl, fun q => setDirection_dirOf _ p q x⟩
  rw [step_of_enabled_turn hv hs henabled, hostAct, hostDirWrite_eq_setDirection x hduty (pinNamed_of_resolve hd hpin)]

/-! ## The parameters -/

/-- Every next state the outcome answers has the property. -/
def EveryNext (o : Host.Outcome State Fault Refusal) (P : State → Prop) : Prop := ∀ t, o = .next t → P t

@[simp] theorem everyNext_next (t : State) (P : State → Prop) : EveryNext (.next t) P ↔ P t := by
  simp [EveryNext]

@[simp] theorem everyNext_fault (r : Fault) (P : State → Prop) : EveryNext (.fault r) P := by
  simp [EveryNext]

@[simp] theorem everyNext_refused (r : Refusal) (P : State → Prop) : EveryNext (.refused r) P := by
  simp [EveryNext]

theorem everyNext_withUnit {s : State} {k : Nat → UnitDesc → Host.Outcome State Fault Refusal} {P : State → Prop}
    (h : ∀ u d, EveryNext (k u d) P) : EveryNext (withUnit s k) P := fun t ht =>
  have ⟨d, _, hk⟩ := withUnit_next ht
  h _ d t hk

/-- A read takes at most one free value (20_memory.md R43, R44). -/
theorem regRead_state (s : State) (u : Nat) (r : Reg) : (s.regRead u r).2 = s ∨ (s.regRead u r).2 = s.advance 1 := by
  unfold State.regRead
  split
  · exact .inr rfl
  · exact .inl rfl

@[simp] theorem regRead_cfg (s : State) (u : Nat) (r : Reg) : (s.regRead u r).2.cfg = s.cfg := by
  obtain h | h := regRead_state s u r <;> simp [h]

@[simp] theorem clearBit_cfg (s : State) (id : Nat) (b : Fin 8) : (s.clearBit id b).cfg = s.cfg := rfl

@[simp] theorem refuseWord_cfg (s : State) : s.refuseWord.cfg = s.cfg := by
  unfold State.refuseWord; split <;> rfl

@[simp] theorem lineStep_cfg (s : State) (u : Nat) (tc rip : Bool) : (lineStep u tc rip s).cfg = s.cfg := by
  unfold lineStep; split <;> rfl

@[simp] theorem hostPrWrite_cfg (s : State) (id : Nat) (v : Byte) : (s.hostPrWrite id v).cfg = s.cfg := by
  unfold State.hostPrWrite; split_ifs <;> simp

@[simp] theorem hostDirWrite_cfg (s : State) (p : Nat) (x : Dir) : (s.hostDirWrite p x).cfg = s.cfg := by
  unfold State.hostDirWrite; split_ifs <;> simp

@[simp] theorem hostIeWrite_cfg (s : State) (b : Bool) : (s.hostIeWrite b).cfg = s.cfg := by
  unfold State.hostIeWrite; split_ifs <;> simp

/-- No instruction writes a parameter (00_scope.md R6). -/
theorem exec_cfg (i : Instr) (s : State) : EveryNext (exec i s) (fun t => t.cfg = s.cfg) := by
  cases i with
  | init unit mode stop size par baud =>
    simp only [exec, execInit]
    split
    · simp
    · split <;> simp
  | stat => simp [exec, execStat]
  | busRd addr =>
    simp only [exec, execBusRd]
    split
    · simp
    · split <;> simp
  | busWr addr data =>
    simp only [exec, execBusWr]
    split
    · simp
    · split
      · simp
      · split <;> simp
  | phaseIdle => simp [exec, execPhaseIdle]
  | phaseResolve =>
    simp only [exec, execPhaseResolve]
    split <;> simp
  | phaseValidate =>
    simp only [exec, execPhaseValidate]
    split
    · simp
    · split <;> simp
  | phasePoll =>
    simp only [exec]
    refine everyNext_withUnit fun u d => ?_
    split
    · simp
    · split
      · simp
      · split <;> simp
  | phaseXckDir =>
    simp only [exec]
    refine everyNext_withUnit fun u d => ?_
    split <;> simp
  | phaseGuardAcq => simp [exec, execPhaseGuardAcq]
  | phaseGuardRel => simp [exec, execPhaseGuardRel]
  | phasePwrClr | phaseModeSel | phaseDsWrite | phaseDivHi | phaseDivLo | phaseFrmSizeLo | phaseFrmSizeHi
    | phaseFrmParity | phaseFrmStop =>
    simp only [exec]
    exact everyNext_withUnit fun u d => by simp

theorem undecoded_cfg (e : DecodeError) (s : State) : EveryNext (undecoded e s) (fun t => t.cfg = s.cfg) := by
  cases e <;> simp [undecoded]

theorem runWord_cfg (p : PortWord) (s : State) : EveryNext (runWord p s) (fun t => t.cfg = s.cfg) := by
  unfold runWord
  split
  · exact exec_cfg _ s
  · exact undecoded_cfg _ s

theorem hostAct_cfg (act : HostAct) (s : State) : EveryNext (hostAct act s) (fun t => t.cfg = s.cfg) := by
  cases act with
  | cmdWrite | cmdRead | bus =>
    rw [hostAct]
    exact runWord_cfg _ s
  | prWrite | dirWrite | ieWrite => simp [hostAct]

/-- Settles O53, turn by turn: SEQ's instruction, a host step taken or passed, LINE, and the reset input. -/
theorem parametersNeverChange : Obligations.ParametersNeverChange := by
  intro s t h
  obtain ⟨-, he⟩ | ⟨rest, -, he⟩ | ⟨a, act, rest, -, -, ha⟩ | ⟨a, act, rest, -, -, rfl⟩ | ⟨u, tc, rip, rest, -, rfl⟩ |
    ⟨rest, -, rfl⟩ := step_cases h
  · exact exec_cfg _ s t he
  · exact exec_cfg _ { s with sched := rest } t he
  · exact hostAct_cfg act { s with sched := rest, agent := a } t ha
  · rfl
  · exact lineStep_cfg _ u tc rip
  · rfl

end Sys2Proof.Proofs
end

section
/-! PROOFS. The state: what reset leaves, the invariants at reset, and that every turn of every agent keeps the canonical form and the recorded faults. -/

namespace Sys2Proof.Proofs

open Sys2Proof.Machine Sys2Proof.Laws

/-! ## Properties of the stores and FAULTS -/

theorem EveryNext.next {P : State → Prop} {t : State} (h : P t) : EveryNext (.next t) P := (everyNext_next t P).mpr h

/-- `P` speaks of the unit registers, PR, DIR and FAULTS only, and each operation that writes one of them keeps it.
Reset is left out: it writes all of them. -/
structure KeptByOps (P : State → Prop) : Prop where
  frame {s t : State} : P s → t.units = s.units → t.pr = s.pr → t.dir = s.dir → t.faults = s.faults → P t
  raise {s : State} (h : P s) (f : ModelFault) : P (s.raise f)
  fieldWrite {s : State} (h : P s) (u : Nat) (f : RegField) (v : BitVec f.width) : P (s.fieldWrite u f v)
  hostWrite {s : State} (h : P s) (u : Nat) (d : UnitDesc) (r : Reg) (v : Byte) : P (s.hostWrite u d r v)
  lineWrite {s : State} (h : P s) (u : Nat) (d : UnitDesc) (tc rip : Bool) : P (s.lineWrite u d tc rip)
  prWrite {s : State} (h : P s) (id : Nat) (v : Byte) : P (s.prWrite id v)
  setDirection {s : State} (h : P s) (pin : Nat) (d : Dir) : P (s.setDirection pin d)

namespace KeptByOps

variable {P : State → Prop} (hP : KeptByOps P) {s : State} (hs : P s)
include hP hs

/-! ### Operations that write no store and no fault -/

theorem setPhase (p : Phase) : P (s.setPhase p) := hP.frame hs rfl rfl rfl rfl

theorem finish (c : ResultCode) : P (s.finish c) := hP.frame hs rfl rfl rfl rfl

theorem rejectWith (c : RejectCode) : P (s.rejectWith c) := hP.frame hs rfl rfl rfl rfl

theorem refuseWord : P s.refuseWord := by
  unfold State.refuseWord
  split
  · exact hP.rejectWith hs .busy
  · exact hP.rejectWith hs .illegalCommand

theorem regRead (u : Nat) (r : Reg) : P (s.regRead u r).2 := by
  obtain h | h := regRead_state s u r <;> rw [h]
  · exact hs
  · exact hP.frame hs rfl rfl rfl rfl

/-- clear_bit is a write of the power-reduction register (41_sequencer.md R89). -/
theorem clearBit (id : Nat) (bit : Fin 8) : P (s.clearBit id bit) := hP.prWrite hs id _

/-! ### Instructions -/

/-- A phase that writes one field of the unit and moves on (20_memory.md R46). -/
theorem everyNext_fieldPhase (f : UnitDesc → RegField) (v : ∀ d, BitVec (f d).width) (p : Phase) :
    EveryNext (withUnit s fun u d => .next ((s.fieldWrite u (f d) (v d)).setPhase p)) P :=
  everyNext_withUnit fun u d => .next (hP.setPhase (hP.fieldWrite hs u (f d) (v d)) p)

theorem everyNext_execInit (unit : BitVec 4) (mode : Mode) (stop : Stop) (size : BitVec 4) (par : BitVec 2) (baud : BitVec 32) :
    EveryNext (execInit unit mode stop size par baud s) P := by
  unfold execInit
  split
  · exact .next (hP.rejectWith hs .busy)
  · split
    · exact .next (hP.frame hs rfl rfl rfl rfl)
    · exact .next (hP.rejectWith hs .illegalCommand)

theorem everyNext_execBusRd (addr : BusAddr) : EveryNext (execBusRd addr s) P := by
  unfold execBusRd
  split
  · exact .next (hP.raise hs _)
  · next u r _ =>
    split
    · exact .next (hP.raise hs _)
    · exact .next (hP.frame (hP.regRead hs u r) rfl rfl rfl rfl)

theorem everyNext_execBusWr (addr : BusAddr) (data : Byte) : EveryNext (execBusWr addr data s) P := by
  unfold execBusWr
  split
  · exact .next (hP.raise hs _)
  · split
    · exact .next (hP.raise hs _)
    · split
      · exact .next (hP.hostWrite hs _ _ _ _)
      · exact everyNext_fault _ P

theorem everyNext_execPhaseResolve : EveryNext (execPhaseResolve s) P := by
  unfold execPhaseResolve
  split
  · exact .next (hP.finish hs _)
  · exact .next (hP.setPhase hs _)

theorem everyNext_execPhaseValidate : EveryNext (execPhaseValidate s) P := by
  unfold execPhaseValidate
  split
  · exact .next (hP.frame hs rfl rfl rfl rfl)
  · split
    · exact .next (hP.finish hs _)
    · exact .next (hP.frame hs rfl rfl rfl rfl)

theorem everyNext_execPhasePoll : EveryNext (execPhasePoll s) P := by
  refine everyNext_withUnit fun u d => ?_
  have hread := hP.regRead hs u .status
  split
  · exact .next (hP.setPhase hread _)
  · split
    · exact .next (hP.setPhase hread _)
    · split
      · exact .next (hP.finish hread _)
      · exact .next (hP.frame hread rfl rfl rfl rfl)

theorem everyNext_execPhaseXckDir : EveryNext (execPhaseXckDir s) P := by
  refine everyNext_withUnit fun u d => ?_
  split
  · exact .next (hP.setPhase (hP.setDirection hs _ _) _)
  · exact .next (hP.setPhase (hP.setDirection hs _ _) _)
  · exact .next hs
  · exact .next hs

/-- Every instruction is made of these operations. -/
theorem everyNext_exec (i : Instr) : EveryNext (exec i s) P := by
  cases i with
  | init unit mode stop size par baud => exact hP.everyNext_execInit hs unit mode stop size par baud
  | stat => exact .next (hP.frame hs rfl rfl rfl rfl)
  | busRd addr => exact hP.everyNext_execBusRd hs addr
  | busWr addr data => exact hP.everyNext_execBusWr hs addr data
  | phaseIdle => exact .next hs
  | phaseResolve => exact hP.everyNext_execPhaseResolve hs
  | phaseValidate => exact hP.everyNext_execPhaseValidate hs
  | phasePoll => exact hP.everyNext_execPhasePoll hs
  | phaseGuardAcq => exact .next (hP.frame hs rfl rfl rfl rfl)
  | phasePwrClr => exact everyNext_withUnit fun u d => .next (hP.setPhase (hP.clearBit hs d.prId d.prBit) .modeSel)
  | phaseXckDir => exact hP.everyNext_execPhaseXckDir hs
  | phaseGuardRel => exact .next (hP.frame hs rfl rfl rfl rfl)
  | phaseModeSel | phaseDsWrite | phaseDivHi | phaseDivLo | phaseFrmSizeLo | phaseFrmSizeHi | phaseFrmParity | phaseFrmStop =>
    exact hP.everyNext_fieldPhase hs _ _ _

/-! ### Turns -/

theorem everyNext_runWord (p : PortWord) : EveryNext (runWord p s) P := by
  unfold runWord
  split
  · exact hP.everyNext_exec hs _
  · next e _ =>
    cases e with
    | noSuchCommand | reservedNonZero => exact .next (hP.refuseWord hs)
    | addressTooWide => exact everyNext_refused _ P

theorem hostPrWrite (id : Nat) (v : Byte) : P (s.hostPrWrite id v) := by
  unfold State.hostPrWrite
  split
  · exact hP.raise hs _
  · split
    · exact hP.prWrite hs id v
    · exact hs

theorem hostDirWrite (pin : Nat) (d : Dir) : P (s.hostDirWrite pin d) := by
  unfold State.hostDirWrite
  split
  · exact hP.raise hs _
  · split
    · exact hP.setDirection hs pin d
    · exact hs

theorem hostIeWrite (b : Bool) : P (s.hostIeWrite b) := by
  unfold State.hostIeWrite
  split
  · exact hP.raise hs _
  · exact hP.frame hs rfl rfl rfl rfl

theorem everyNext_hostAct (act : HostAct) : EveryNext (hostAct act s) P := by
  cases act with
  | cmdWrite | cmdRead | bus =>
    rw [hostAct]
    exact hP.everyNext_runWord hs _
  | prWrite id v => exact .next (hP.hostPrWrite hs id v)
  | dirWrite pin d => exact .next (hP.hostDirWrite hs pin d)
  | ieWrite b => exact .next (hP.hostIeWrite hs b)

theorem keeps_lineStep (u : Nat) (tc rip : Bool) : P (lineStep u tc rip s) := by
  unfold lineStep
  split
  · exact hP.lineWrite hs u _ tc rip
  · exact hs

/-- Every step but a reset keeps the property: SEQ's, a host agent's taken or passed, and LINE's. -/
theorem of_step_or_reset {t : State} (h : step s = .next t) :
    P t ∨ ∃ rest, s.sched = .reset :: rest ∧ t = State.resetInput { s with sched := rest } := by
  have htaken : ∀ rest a, P { s with sched := rest, agent := a } := fun _ _ => hP.frame hs rfl rfl rfl rfl
  obtain ⟨-, he⟩ | ⟨rest, -, he⟩ | ⟨a, act, rest, -, -, ha⟩ | ⟨a, act, rest, -, -, rfl⟩ | ⟨u, tc, rip, rest, -, rfl⟩ | hreset :=
    step_cases h
  · exact .inl (hP.everyNext_exec hs _ t he)
  · exact .inl (hP.everyNext_exec (htaken rest s.agent) _ t he)
  · exact .inl (hP.everyNext_hostAct (htaken rest a) act t ha)
  · exact .inl (htaken rest s.agent)
  · exact .inl (hP.keeps_lineStep (htaken rest s.agent) u tc rip)
  · exact .inr hreset

end KeptByOps

/-! ## The canonical form -/

theorem canonical_keptByOps : KeptByOps State.Canonical where
  frame h hu hp hd hf := by
    unfold State.Canonical at h ⊢
    rwa [hu, hp, hd, hf]
  raise h f := raise_canonical f h
  fieldWrite h u f v := fieldWrite_canonical u f v h
  hostWrite h u d r v := hostWrite_canonical u d r v h
  lineWrite h u d tc rip := lineWrite_canonical u d tc rip h
  prWrite h id v := prWrite_canonical id v h
  setDirection h pin d := setDirection_canonical pin d h

/-- Settles O47: every operation keeps the canonical form, and the reset input builds it anew. -/
theorem stepKeepsCanonicalForm : Obligations.StepKeepsCanonicalForm := by
  intro s t hs h
  obtain ht | ⟨rest, -, rfl⟩ := canonical_keptByOps.of_step_or_reset hs h
  · exact ht
  · exact resetInput_canonical _

/-! ## FAULTS only grows -/

theorem mem_faults_keptByOps (f : ModelFault) : KeptByOps (fun s => f ∈ s.faults) where
  frame h _ _ _ hf := hf ▸ h
  raise h g := (mem_raise_faults _ g f).mpr (.inl h)
  fieldWrite h u g v := by rwa [fieldWrite_faults]
  hostWrite h u d r v := by rwa [hostWrite_faults]
  lineWrite h _ _ _ _ := h
  prWrite h _ _ := h
  setDirection h _ _ := h

/-- Settles O52: `raise` keeps what is recorded, and no other operation but the reset input writes FAULTS. -/
theorem noStepClearsFault : Obligations.NoStepClearsFault := by
  intro s t hreset h f hf
  obtain ht | ⟨rest, hs, -⟩ := (mem_faults_keptByOps f).of_step_or_reset hf h
  · exact ht
  · exact absurd hs (hreset rest)

/-! ## Reset -/

/-- Settles O43: SEQSTAT is 0x00 since PHASE is IDLE, DONE is 0 and no code is set; the other fields are read off. -/
theorem resetLeavesIdle : Obligations.ResetLeavesIdle := by
  intro c x
  have hseqstat : (State.resetWith c x).seqstat = 0x00#8 := by
    simp [State.seqstat, State.busy, State.resetWith, resultBits, rejectBits]
  exact ⟨rfl, hseqstat, rfl, rfl, rfl, rfl, rfl, rfl, rfl, rfl, rfl, rfl⟩

/-- The reference parameters meet 10_state.md R17 (93_implementation_defined.md section 3). -/
theorem reference_valid : paramsValid Config.reference = true := by decide

/-- Settles O44: the stores of State.reset list nothing, so each accessor answers the unlisted value. -/
theorem namedResetValues : Obligations.NamedResetValues :=
  ⟨rfl, reference_valid, fun _ => rfl, fun _ => rfl, fun _ => rfl, rfl, rfl, rfl, rfl⟩

/-! ## The invariants of an idle machine -/

section Idle

variable {s : State} (hidle : s.phase = .idle)
include hidle

/-- IDLE has the least code, so no phase is over. -/
theorem not_past_of_idle (p : Phase) : ¬ s.Past p := by
  simp [State.Past, State.phaseNum, hidle, Phase.code]

theorem not_guarded_of_idle : ¬ s.Guarded := by
  simp [State.Guarded, State.phaseNum, hidle, Phase.code]

/-- An idle machine owes SeqInv the range of PCNT only (10_state.md R32). -/
theorem seqInv_of_idle (hpoll : s.PollInRange) : s.SeqInv := by
  refine ⟨fun h => absurd hidle h, fun h => absurd h (not_past_of_idle hidle _), ?_, ?_, hpoll,
    fun h => absurd h (not_past_of_idle hidle _), fun h => absurd h (not_guarded_of_idle hidle)⟩
  · simp [hidle]
  · simp [hidle]

/-- An idle machine has written no field yet. -/
theorem configured_of_idle : s.Configured := by
  intro d _
  simp [not_past_of_idle hidle]

end Idle

/-- Any reset state with canonical draws and PCNT in its range meets the three invariants. -/
theorem resetWith_invariants {c : Params} {x : Undetermined} (hu : Store.Wf UnitRegs.unlisted x.units)
    (hp : Store.Wf prUnlisted x.pr) (hd : Store.Wf dirUnlisted x.dir) (hpoll : (State.resetWith c x).PollInRange) :
    (State.resetWith c x).Canonical ∧ (State.resetWith c x).SeqInv ∧ (State.resetWith c x).Configured :=
  ⟨⟨hu, hp, hd, List.nodup_nil⟩, seqInv_of_idle rfl hpoll, configured_of_idle rfl⟩

/-- Settles O50: State.reset is the reset state of one choice of draws, with empty stores and PCNT = 0. -/
theorem resetMeetsInvariants : Obligations.ResetMeetsInvariants := by
  obtain ⟨hu, hp, hd⟩ := reset_stores_wf
  exact ⟨resetWith_invariants hu hp hd rfl, fun _ _ => resetWith_invariants⟩

end Sys2Proof.Proofs
end

section
/-! PROOFS. The sequencer's invariant: what a turn of a host agent or of LINE can do to the sequencer's fields, that every phase keeps SeqInv, and that ISR has no step under the guard. -/

namespace Sys2Proof.Proofs

open Sys2Proof.Machine Sys2Proof.Laws

/-! ## The sequencer's fields -/

/-- `t` agrees with `s` on everything SEQ's control depends on: PHASE, the four latches, IE and the parameters. -/
def SameSequencer (s t : State) : Prop :=
  t.phase = s.phase ∧ t.lat = s.lat ∧ t.divq = s.divq ∧ t.prior = s.prior ∧ t.pcnt = s.pcnt ∧ t.ie = s.ie ∧ t.cfg = s.cfg

theorem seqInv_of_sameSequencer {s t : State} (hs : s.SeqInv) (h : SameSequencer s t) : t.SeqInv := by
  obtain ⟨hphase, hlat, hdivq, -, hpcnt, hie, hcfg⟩ := h
  simp only [State.SeqInv, State.PollInRange, State.Past, State.Guarded, State.phaseNum, hphase, hlat, hdivq, hpcnt, hie, hcfg] at hs ⊢
  exact hs

section Operations

variable (s : State)

theorem sameSequencer_raise (f : ModelFault) : SameSequencer s (s.raise f) := by simp [SameSequencer]

theorem sameSequencer_regRead (u : Nat) (r : Reg) : SameSequencer s (s.regRead u r).2 := by
  obtain h | h := regRead_state s u r <;> simp [SameSequencer, h]

theorem sameSequencer_fieldWrite (u : Nat) (f : RegField) (v : BitVec f.width) : SameSequencer s (s.fieldWrite u f v) := by
  simp [SameSequencer]

theorem sameSequencer_prWrite (id : Nat) (v : Byte) : SameSequencer s (s.prWrite id v) := by simp [SameSequencer]

theorem sameSequencer_setDirection (pin : Nat) (x : Dir) : SameSequencer s (s.setDirection pin x) := by
  simp [SameSequencer]

theorem sameSequencer_refuseWord : SameSequencer s s.refuseWord := by
  unfold State.refuseWord
  split <;> simp [SameSequencer]

theorem sameSequencer_execBusRd (addr : BusAddr) : EveryNext (execBusRd addr s) (SameSequencer s) := by
  unfold execBusRd
  split
  · exact .next (sameSequencer_raise s _)
  · next u r _ =>
    split
    · exact .next (sameSequencer_raise s _)
    · exact .next (sameSequencer_regRead s u r)

theorem sameSequencer_execBusWr (addr : BusAddr) (data : Byte) : EveryNext (execBusWr addr data s) (SameSequencer s) := by
  unfold execBusWr
  split
  · exact .next (sameSequencer_raise s _)
  · split
    · exact .next (sameSequencer_raise s _)
    · split
      · exact .next (by simp [SameSequencer])
      · exact everyNext_fault _ _

theorem sameSequencer_runWord_bustx (we : Bool) (addr : BusAddr) (data : Byte) :
    EveryNext (runWord (.bustx we addr data) s) (SameSequencer s) := by
  simp only [runWord, decode, decodeBus]
  split_ifs
  · exact everyNext_refused _ _
  · exact sameSequencer_execBusWr s addr data
  · exact sameSequencer_execBusRd s addr

theorem sameSequencer_hostPrWrite (id : Nat) (v : Byte) : SameSequencer s (s.hostPrWrite id v) := by
  unfold State.hostPrWrite
  split_ifs
  · exact sameSequencer_raise s _
  · exact sameSequencer_prWrite s id v
  · simp [SameSequencer]

theorem sameSequencer_hostDirWrite (pin : Nat) (x : Dir) : SameSequencer s (s.hostDirWrite pin x) := by
  unfold State.hostDirWrite
  split_ifs
  · exact sameSequencer_raise s _
  · exact sameSequencer_setDirection s pin x
  · simp [SameSequencer]

theorem sameSequencer_lineStep (u : Nat) (tc rip : Bool) : SameSequencer s (lineStep u tc rip s) := by
  unfold lineStep
  split <;> exact ⟨rfl, rfl, rfl, rfl, rfl, rfl, rfl⟩

end Operations

/-! ## What a host step can do to the sequencer -/

/-- What a host step may do to the sequencer of an idle machine: start a command, or write IE. -/
def IdleHostMove (s t : State) : Prop := (∃ l, l.baud ≠ 0#32 ∧ t = s.accept l) ∨ ∃ b, t = s.enableInterrupts b

/-- A legal command's baud rate is not 0 (30_encoding.md R59 (e)). -/
theorem latchOf_baud_ne_zero {unit : BitVec 4} {mode : Mode} {stop : Stop} {size : BitVec 4} {par : BitVec 2}
    {baud : BitVec 32} {l : Latch} (h : latchOf unit mode stop size par baud = some l) : l.baud ≠ 0#32 := by
  unfold latchOf at h
  split at h
  · split at h
    · cases h
    · next hbaud => cases h; exact hbaud
  · cases h

theorem execInit_sequencer (unit : BitVec 4) (mode : Mode) (stop : Stop) (size : BitVec 4) (par : BitVec 2)
    (baud : BitVec 32) (s : State) :
    EveryNext (execInit unit mode stop size par baud s) (fun t => SameSequencer s t ∨ s.phase = .idle ∧ IdleHostMove s t) := by
  unfold execInit
  split
  · exact .next (.inl (by simp [SameSequencer]))
  · next hidle =>
    split
    · next l hl => exact .next (.inr ⟨not_not.mp hidle, .inl ⟨l, latchOf_baud_ne_zero hl, rfl⟩⟩)
    · exact .next (.inl (by simp [SameSequencer]))

/-- A write of the command port is an INIT or is refused (30_encoding.md R60). -/
theorem runWord_cmd64_sequencer (w : CmdWord) (s : State) :
    EveryNext (runWord (.cmd64 w) s) (fun t => SameSequencer s t ∨ s.phase = .idle ∧ IdleHostMove s t) := by
  simp only [runWord, decode, decodeCmd]
  split_ifs
  · exact .next (.inl (sameSequencer_refuseWord s))
  · exact .next (.inl (sameSequencer_refuseWord s))
  · exact execInit_sequencer _ _ _ _ _ _ s

/-- MAIN's duty (b) of 60_exceptions.md R112 keeps IE from it while a command runs. -/
theorem hostIeWrite_sequencer {s : State} (hmain : s.agent = .main) (b : Bool) :
    SameSequencer s (s.hostIeWrite b) ∨ s.phase = .idle ∧ IdleHostMove s (s.hostIeWrite b) := by
  unfold State.hostIeWrite
  split
  · exact .inl (sameSequencer_raise s _)
  · next hduty =>
    have hidle : s.phase = .idle := by simpa [State.dutyBound, State.busy, hmain] using hduty
    exact .inr ⟨hidle, .inr ⟨b, rfl⟩⟩

/-- A step of MAIN or ISR leaves a running sequencer as it is. -/
theorem hostAct_sequencer {s : State} (act : HostAct) (hmain : ∀ b, act = .ieWrite b → s.agent = .main) :
    EveryNext (hostAct act s) (fun t => SameSequencer s t ∨ s.phase = .idle ∧ IdleHostMove s t) := by
  cases act with
  | cmdWrite w => exact runWord_cmd64_sequencer w s
  | cmdRead => exact .next (.inl ⟨rfl, rfl, rfl, rfl, rfl, rfl, rfl⟩)
  | bus we addr data => exact fun t ht => .inl (sameSequencer_runWord_bustx s we addr data t ht)
  | prWrite id v => exact .next (.inl (sameSequencer_hostPrWrite s id v))
  | dirWrite pin x => exact .next (.inl (sameSequencer_hostDirWrite s pin x))
  | ieWrite b => exact .next (hostIeWrite_sequencer (hmain b rfl) b)

/-! ## The range of PCNT -/

theorem pollInRange_iff (s : State) :
    s.PollInRange ↔ (s.cfg.maxPoll = .unbounded → s.pcnt = 0) ∧
      ∀ n, s.cfg.maxPoll = .bounded n → s.pcnt ≤ n ∧ (s.phase = .poll → s.pcnt < n) := by
  unfold State.PollInRange
  cases s.cfg.maxPoll <;> simp

/-- PCNT stays in range where it stands and POLL is not entered. -/
theorem pollInRange_of_same_pcnt {s t : State} (h : s.PollInRange) (hcfg : t.cfg = s.cfg) (hpcnt : t.pcnt = s.pcnt)
    (hpoll : t.phase = .poll → s.phase = .poll) : t.PollInRange := by
  rw [pollInRange_iff] at h ⊢
  rw [hcfg, hpcnt]
  obtain ⟨hunb, hb⟩ := h
  refine ⟨hunb, fun n hn => ?_⟩
  obtain ⟨hle, hlt⟩ := hb n hn
  exact ⟨hle, fun hp => hlt (hpoll hp)⟩

/-- A valid limit leaves a read when PCNT is 0 (00_scope.md R6). -/
theorem pollInRange_of_pcnt_zero {t : State} (hv : paramsValid t.cfg = true) (hpcnt : t.pcnt = 0) : t.PollInRange := by
  rw [pollInRange_iff, hpcnt]
  refine ⟨fun _ => rfl, fun n hn => ⟨Nat.zero_le n, fun _ => ?_⟩⟩
  simp only [paramsValid, hn, maxPollValid, Bool.and_eq_true, decide_eq_true_eq] at hv
  omega

theorem resetInput_pollInRange (s : State) : s.resetInput.PollInRange := by
  obtain ⟨hunb, hb⟩ := drawnPcnt_range s.cfg.maxPoll (s.draws + 160)
  exact (pollInRange_iff _).mpr ⟨hunb, fun n hn => ⟨hb n hn, nofun⟩⟩

/-! ## Where PHASE stands -/

theorem past_iff_of_phase {s : State} {p q : Phase} (hp : s.phase = p) : s.Past q ↔ q.code.toNat < p.code.toNat := by
  rw [State.Past, State.phaseNum, hp]

/-- The guard is held from PWR_CLR on, whose code is 5 (30_encoding.md R62). -/
theorem guarded_iff_of_phase {s : State} {p : Phase} (hp : s.phase = p) : s.Guarded ↔ 5 ≤ p.code.toNat := by
  rw [State.Guarded, State.phaseNum, hp]

theorem not_guarded_of_phase {s : State} (p : Phase) (hp : s.phase = p) (hlt : p.code.toNat < 5) : ¬ s.Guarded := by
  rw [guarded_iff_of_phase hp]
  exact not_le.mpr hlt

theorem past_validate_of_guarded {s : State} (hg : s.Guarded) : s.Past .validate :=
  lt_of_lt_of_le (by decide : Phase.validate.code.toNat < 5) hg

/-! ## What a command past VALIDATE meets -/

/-- The latched command has been checked: what SeqInv says of LAT and DIVQ past VALIDATE. -/
def Validated (s : State) : Prop :=
  s.lat.baud ≠ 0#32 ∧ s.lat.unit.toNat < s.cfg.nUnits ∧
    ∀ m, multiplier s.lat.mode = some m → divisor s.cfg.fOsc m s.lat.baud.toNat = some s.divq

theorem validated_of_past {s : State} (h : s.SeqInv) (hpast : s.Past .validate) : Validated s := by
  obtain ⟨hbaud, hunit, -, -, -, hdivq, -⟩ := h
  refine ⟨hbaud fun hidle => not_past_of_idle hidle _ hpast, hunit ?_, hdivq hpast⟩
  exact lt_trans (by decide : Phase.resolve.code.toNat < Phase.validate.code.toNat) hpast

theorem seqInv_of_validated {t : State} (h : Validated t) (hxck : t.phase = .xckDir → t.lat.mode = .ms ∨ t.lat.mode = .ss)
    (hdiv : t.phase = .divHi ∨ t.phase = .divLo → t.lat.mode ≠ .ss) (hpoll : t.PollInRange)
    (hie : t.Guarded → t.ie = false) : t.SeqInv := by
  obtain ⟨hbaud, hunit, hdivq⟩ := h
  exact ⟨fun _ => hbaud, fun _ => hunit, hxck, hdiv, hpoll, fun _ => hdivq, hie⟩

/-- Up to VALIDATE SeqInv says nothing of the mode, DIVQ and IE. -/
theorem seqInv_of_not_validated {t : State} (hnot : ¬ t.Past .validate) (hbaud : t.lat.baud ≠ 0#32)
    (hunit : t.Past .resolve → t.lat.unit.toNat < t.cfg.nUnits) (hpoll : t.PollInRange) : t.SeqInv := by
  have hne : ∀ p : Phase, Phase.validate.code.toNat < p.code.toNat → t.phase ≠ p := fun p hlt hp =>
    hnot ((past_iff_of_phase hp).mpr hlt)
  exact ⟨fun _ => hbaud, hunit, fun hp => absurd hp (hne _ (by decide)),
    fun hp => absurd hp (not_or.mpr ⟨hne _ (by decide), hne _ (by decide)⟩), hpoll, fun hpast => absurd hpast hnot,
    fun hg => absurd (past_validate_of_guarded hg) hnot⟩

/-! ## Acceptance, completion and reset -/

theorem accept_seqInv {s : State} (hs : s.SeqInv) {l : Latch} (hbaud : l.baud ≠ 0#32) : (s.accept l).SeqInv := by
  obtain ⟨-, -, -, -, hpoll, -, -⟩ := hs
  have hphase := accept_phase s l
  refine seqInv_of_not_validated ?_ hbaud (fun hpast => ?_) (pollInRange_of_same_pcnt hpoll rfl rfl nofun)
  · rw [past_iff_of_phase hphase]; decide
  · rw [past_iff_of_phase hphase] at hpast
    exact absurd hpast (by decide)

theorem finish_seqInv (s : State) (c : ResultCode) : (s.finish c).SeqInv := seqInv_of_idle rfl (finish_pollInRange s c)

theorem resetInput_seqInv (s : State) : s.resetInput.SeqInv := seqInv_of_idle rfl (resetInput_pollInRange s)

/-- An idle machine keeps SeqInv when a host step starts a command or writes IE. -/
theorem seqInv_of_idleHostMove {s t : State} (hs : s.SeqInv) (hidle : s.phase = .idle) (h : IdleHostMove s t) : t.SeqInv := by
  obtain ⟨l, hbaud, rfl⟩ | ⟨b, rfl⟩ := h
  · exact accept_seqInv hs hbaud
  · obtain ⟨-, -, -, -, hpoll, -, -⟩ := hs
    exact seqInv_of_idle hidle hpoll

/-! ## The phases before the guard -/

section Unguarded

variable {s : State} (hs : s.SeqInv)
include hs

theorem execPhaseResolve_seqInv (hphase : s.phase = .resolve) : EveryNext (execPhaseResolve s) State.SeqInv := by
  obtain ⟨hbaud, -, -, -, hpoll, -, -⟩ := hs
  unfold execPhaseResolve
  split
  · exact .next (finish_seqInv s _)
  · next hunit =>
    have hnot : ¬ (s.setPhase .validate).Past .validate := by
      rw [past_iff_of_phase (setPhase_phase s .validate)]; decide
    exact .next (seqInv_of_not_validated hnot (hbaud (by simp [hphase])) (fun _ => not_le.mp hunit)
      (pollInRange_of_same_pcnt hpoll rfl rfl nofun))

/-- VALIDATE checks the divisor it latches, and a valid limit leaves POLL its first read. -/
theorem execPhaseValidate_seqInv (hv : paramsValid s.cfg = true) (hphase : s.phase = .validate) :
    EveryNext (execPhaseValidate s) State.SeqInv := by
  obtain ⟨hbaud, hunit, -, -, -, -, -⟩ := hs
  have toPoll : ∀ q : BitVec 12, (∀ m, multiplier s.lat.mode = some m → divisor s.cfg.fOsc m s.lat.baud.toNat = some q) →
      State.SeqInv { s with divq := q, pcnt := 0, phase := .poll } := fun q hq =>
    seqInv_of_validated ⟨hbaud (by simp [hphase]), hunit ((past_iff_of_phase hphase).mpr (by decide)), hq⟩ nofun (by simp)
      (pollInRange_of_pcnt_zero hv rfl) (fun hg => absurd hg (not_guarded_of_phase .poll rfl (by decide)))
  unfold execPhaseValidate
  split
  · next hnone => exact .next (toPoll s.divq (by simp [hnone]))
  · next m hm =>
    split
    · exact .next (finish_seqInv s _)
    · next q hq =>
      refine .next (toPoll q fun m' hm' => ?_)
      obtain rfl : m = m' := Option.some.inj (hm.symm.trans hm')
      exact hq

/-- After a read of STATUS the command is as checked; what the next state needs is PCNT in its range. -/
theorem seqInv_after_poll {t : State} (hphase : s.phase = .poll) (hnext : t.phase = .guardAcq ∨ t.phase = .poll)
    (hlat : t.lat = s.lat) (hdivq : t.divq = s.divq) (hcfg : t.cfg = s.cfg) (hpoll : t.PollInRange) : t.SeqInv := by
  have hchecked : Validated t := by
    have h := validated_of_past hs ((past_iff_of_phase hphase).mpr (by decide))
    rwa [Validated, hlat, hdivq, hcfg]
  refine seqInv_of_validated hchecked (fun hp => ?_) (fun hp => ?_) hpoll (fun hg => ?_)
  · simp [hp] at hnext
  · obtain hp | hp := hp <;> simp [hp] at hnext
  · obtain hp | hp := hnext <;> exact absurd hg (not_guarded_of_phase _ hp (by decide))

/-- A read that is not the last leaves PCNT below the limit (41_sequencer.md R86). -/
theorem execPhasePoll_seqInv (hphase : s.phase = .poll) : EveryNext (execPhasePoll s) State.SeqInv := by
  have ⟨_, _, _, _, hpoll, _, _⟩ := hs
  refine everyNext_withUnit fun u d => ?_
  obtain ⟨-, hlat, hdivq, -, hpcnt, -, hcfg⟩ := sameSequencer_regRead s u .status
  have same_pcnt : ∀ p, p = .guardAcq ∨ p = .poll → ((s.regRead u .status).2.setPhase p).SeqInv := fun p hp =>
    seqInv_after_poll hs hphase hp hlat hdivq hcfg (pollInRange_of_same_pcnt hpoll hcfg hpcnt fun _ => hphase)
  split
  · exact .next (same_pcnt _ (.inl rfl))
  · split
    · exact .next (same_pcnt _ (.inr rfl))
    · next n hmax =>
      split
      · exact .next (finish_seqInv _ _)
      · next hlast =>
        refine .next (seqInv_after_poll hs hphase (.inr rfl) hlat hdivq hcfg ?_)
        obtain ⟨-, hlt⟩ := ((pollInRange_iff s).mp hpoll).2 n hmax
        have hreads : s.pcnt + 1 < n := by
          have := hlt hphase
          omega
        rw [pollInRange_iff]
        simp only [hcfg, hmax]
        exact ⟨nofun, fun m hm => by cases hm; exact ⟨hreads.le, fun _ => hreads⟩⟩

/-- GUARD_ACQ acquires the guard: IE is 0 from here on (20_memory.md R52). -/
theorem execPhaseGuardAcq_seqInv (hphase : s.phase = .guardAcq) : EveryNext (execPhaseGuardAcq s) State.SeqInv := by
  have hchecked := validated_of_past hs ((past_iff_of_phase hphase).mpr (by decide))
  obtain ⟨-, -, -, -, hpoll, -, -⟩ := hs
  exact .next (seqInv_of_validated hchecked nofun (by simp) (pollInRange_of_same_pcnt hpoll rfl rfl nofun) fun _ => rfl)

end Unguarded

/-! ## The phases under the guard -/

section UnderGuard

variable {s : State} (hs : s.SeqInv) (hg : s.Guarded)
include hs hg

/-- Under the guard a phase that leaves the sequencer's fields keeps SeqInv on its way to the next, if the mode is one
the next phase is visited in (42_mode_clock.md R98 to R100). -/
theorem seqInv_setPhase_of_guarded {r : State} (hr : SameSequencer s r) {p : Phase} (hpoll : p ≠ .poll)
    (hxck : p = .xckDir → s.lat.mode = .ms ∨ s.lat.mode = .ss) (hdiv : p = .divHi ∨ p = .divLo → s.lat.mode ≠ .ss) :
    (r.setPhase p).SeqInv := by
  obtain ⟨-, hlat, hdivq, -, hpcnt, hie, hcfg⟩ := hr
  have hchecked : Validated (r.setPhase p) := by
    have h := validated_of_past hs (past_validate_of_guarded hg)
    rwa [Validated, setPhase_lat, setPhase_divq, setPhase_cfg, hlat, hdivq, hcfg]
  obtain ⟨-, -, -, -, hrange, -, hmasked⟩ := hs
  refine seqInv_of_validated hchecked ?_ ?_ (pollInRange_of_same_pcnt hrange hcfg hpcnt fun hp => absurd hp hpoll)
    fun _ => hie.trans (hmasked hg)
  · rwa [setPhase_lat, hlat]
  · rwa [setPhase_lat, hlat]

theorem fieldPhase_seqInv (f : UnitDesc → RegField) (v : ∀ d, BitVec (f d).width) {p : Phase} (hpoll : p ≠ .poll)
    (hxck : p = .xckDir → s.lat.mode = .ms ∨ s.lat.mode = .ss) (hdiv : p = .divHi ∨ p = .divLo → s.lat.mode ≠ .ss) :
    EveryNext (withUnit s fun u d => .next ((s.fieldWrite u (f d) (v d)).setPhase p)) State.SeqInv :=
  everyNext_withUnit fun u d =>
    .next (seqInv_setPhase_of_guarded hs hg (sameSequencer_fieldWrite s u (f d) (v d)) hpoll hxck hdiv)

theorem execPhasePwrClr_seqInv : EveryNext (execPhasePwrClr s) State.SeqInv :=
  everyNext_withUnit fun _ d =>
    .next (seqInv_setPhase_of_guarded hs hg (sameSequencer_prWrite s d.prId _) nofun nofun (by simp))

/-- DS_WRITE goes to XCK_DIR in MS and SS and to DIV_HI in NA and DA (41_sequencer.md R81). -/
theorem execPhaseDsWrite_seqInv : EveryNext (execPhaseDsWrite s) State.SeqInv := by
  refine fieldPhase_seqInv hs hg fieldDs _ ?_ ?_ ?_
  all_goals cases s.lat.mode <;> simp [afterDsWrite]

/-- XCK_DIR goes to DIV_HI in MS only. -/
theorem execPhaseXckDir_seqInv : EveryNext (execPhaseXckDir s) State.SeqInv := by
  refine everyNext_withUnit fun _ d => ?_
  split
  · next hms =>
    exact .next (seqInv_setPhase_of_guarded hs hg (sameSequencer_setDirection s d.xckPin _) nofun nofun (by simp [hms]))
  · exact .next (seqInv_setPhase_of_guarded hs hg (sameSequencer_setDirection s d.xckPin _) nofun nofun (by simp))
  · exact .next hs
  · exact .next hs

theorem execPhaseDivHi_seqInv (hphase : s.phase = .divHi) : EveryNext (execPhaseDivHi s) State.SeqInv := by
  have ⟨_, _, _, hmode, _, _, _⟩ := hs
  exact fieldPhase_seqInv hs hg (fun _ => fieldDivHi) _ nofun nofun fun _ => hmode (.inl hphase)

end UnderGuard

/-! ## Steps -/

/-- Every phase keeps SeqInv. -/
theorem exec_phase_seqInv {s : State} (hv : paramsValid s.cfg = true) (hs : s.SeqInv) :
    EveryNext (exec s.phase.instr s) State.SeqInv := by
  have guarded : ∀ {p}, s.phase = p → 5 ≤ p.code.toNat → s.Guarded := fun hp => (guarded_iff_of_phase hp).mpr
  cases hp : s.phase with
  | idle => exact .next hs
  | resolve => exact execPhaseResolve_seqInv hs hp
  | validate => exact execPhaseValidate_seqInv hs hv hp
  | poll => exact execPhasePoll_seqInv hs hp
  | guardAcq => exact execPhaseGuardAcq_seqInv hs hp
  | pwrClr => exact execPhasePwrClr_seqInv hs (guarded hp (by decide))
  | dsWrite => exact execPhaseDsWrite_seqInv hs (guarded hp (by decide))
  | xckDir => exact execPhaseXckDir_seqInv hs (guarded hp (by decide))
  | divHi => exact execPhaseDivHi_seqInv hs (guarded hp (by decide)) hp
  | modeSel | divLo | frmSizeLo | frmSizeHi | frmParity | frmStop =>
    exact fieldPhase_seqInv hs (guarded hp (by decide)) _ _ nofun nofun (by simp)
  | guardRel => exact .next (finish_seqInv _ _)

/-- Settles O48, turn by turn: SEQ's phase, a host step taken or passed, LINE, and the reset input. -/
theorem stepKeepsSequencerInvariant : Obligations.StepKeepsSequencerInvariant := by
  intro s t hs h
  obtain ⟨hv, -⟩ := step_next h
  have turn_taken : ∀ rest a, State.SeqInv { s with sched := rest, agent := a } := fun _ _ => hs
  obtain ⟨-, he⟩ | ⟨rest, -, he⟩ | ⟨a, act, rest, -, hen, ha⟩ | ⟨a, act, rest, -, -, rfl⟩ | ⟨u, tc, rip, rest, -, rfl⟩ |
    ⟨rest, -, rfl⟩ := step_cases h
  · exact exec_phase_seqInv hv hs t he
  · exact exec_phase_seqInv (s := { s with sched := rest }) hv hs t he
  · have hmain : ∀ b, act = .ieWrite b → a = .main := fun b hb =>
      ((hostEnabled_iff s a act).mp hen).resolve_right fun ⟨_, hne⟩ => hne b hb
    obtain hsame | ⟨hidle, hmove⟩ := hostAct_sequencer (s := { s with sched := rest, agent := a }) act hmain t ha
    · exact seqInv_of_sameSequencer (turn_taken rest a) hsame
    · exact seqInv_of_idleHostMove (turn_taken rest a) hidle hmove
  · exact turn_taken rest s.agent
  · exact seqInv_of_sameSequencer (turn_taken rest s.agent) (sameSequencer_lineStep _ u tc rip)
  · exact resetInput_seqInv _

/-- Settles O36: under the guard IE is 0, and ISR's turn passes while it is (20_memory.md R52, 00_scope.md R11). -/
theorem noHandlerStepUnderGuard : Obligations.NoHandlerStepUnderGuard := by
  intro s act rest hv ⟨_, _, _, _, _, _, hmasked⟩ hg hs
  exact isrTurnPassesWhenMasked s act rest hv hs (.inl (hmasked hg))

end Sys2Proof.Proofs
end

section
/-! PROOFS. The register bus: which register an address names, and what BUS.RD and BUS.WR do to it, and host writes of a power-reduction register. -/

namespace Sys2Proof.Proofs

open Sys2Proof.Machine Sys2Proof.Laws

/-! ## Addresses -/

theorem mem_reg_all (r : Reg) : r ∈ Reg.all := by cases r <;> decide

theorem addressOf_mem_window (d : UnitDesc) (r : Reg) : addressOf d r ∈ window d := List.mem_map_of_mem (mem_reg_all r)

/-- No two registers of a unit share an address (10_state.md R17 (a)). -/
theorem addressOf_injective {d : UnitDesc} (h : (window d).Nodup) : Function.Injective (addressOf d) := fun r q e =>
  List.inj_on_of_nodup_map h (mem_reg_all r) (mem_reg_all q) e

theorem addressOf_of_regAt {d : UnitDesc} {a : Nat} {r : Reg} (h : regAt d a = some r) : addressOf d r = a := by
  simpa using List.find?_some h

theorem regAt_addressOf {d : UnitDesc} (h : (window d).Nodup) (r : Reg) : regAt d (addressOf d r) = some r := by
  cases hq : regAt d (addressOf d r) with
  | none => simpa using List.find?_eq_none.mp hq r (mem_reg_all r)
  | some q => rw [addressOf_injective h (addressOf_of_regAt hq)]

theorem regAt_eq_none {d : UnitDesc} {a : Nat} (h : a ∉ window d) : regAt d a = none :=
  List.find?_eq_none.mpr fun r _ hr => h (by simpa using of_decide_eq_true hr ▸ addressOf_mem_window d r)

/-- Whatever the look-up answers has the address. -/
theorem locateFrom_sound {a u : Nat} {r : Reg} {ds : List UnitDesc} {k : Nat} (h : locateFrom a k ds = some (u, r)) :
    ∃ i d, u = k + i ∧ ds[i]? = some d ∧ addressOf d r = a := by
  induction ds generalizing k with
  | nil => cases h
  | cons d ds ih =>
    simp only [locateFrom] at h
    split at h
    · next q hq =>
      cases h
      exact ⟨0, d, rfl, rfl, addressOf_of_regAt hq⟩
    · obtain ⟨i, e, rfl, he, ha⟩ := ih h
      exact ⟨i + 1, e, by omega, he, ha⟩

theorem locate_sound {p : Params} {a u : Nat} {r : Reg} (h : locate p a = some (u, r)) :
    ∃ d, resolve p u = some d ∧ addressOf d r = a := by
  obtain ⟨i, d, rfl, hd, ha⟩ := locateFrom_sound h
  exact ⟨d, by rwa [resolve, Nat.zero_add], ha⟩

/-- Two records apart have no address in common (10_state.md R17 (b)). -/
theorem not_mem_window_of_apart {d e : UnitDesc} (h : unitsApart d e = true) {a : Nat} (ha : a ∈ window e) : a ∉ window d := by
  simp only [unitsApart, Bool.and_eq_true, List.all_eq_true] at h
  obtain ⟨⟨hdisjoint, -⟩, -⟩ := h
  exact fun had => by simpa [ha] using hdisjoint a had

/-- The look-up passes every record before the one that has the address. -/
theorem locateFrom_complete {ds : List UnitDesc} (hnodup : ∀ d ∈ ds, (window d).Nodup) (hapart : allApart ds = true)
    {i : Nat} {e : UnitDesc} (he : ds[i]? = some e) (r : Reg) (k : Nat) :
    locateFrom (addressOf e r) k ds = some (k + i, r) := by
  induction ds generalizing i k with
  | nil => simp at he
  | cons d ds ih =>
    simp only [allApart, Bool.and_eq_true, List.all_eq_true] at hapart
    obtain ⟨hfirst, hrest⟩ := hapart
    cases i with
    | zero =>
      obtain rfl : d = e := by simpa using he
      simp [locateFrom, regAt_addressOf (hnodup d List.mem_cons_self)]
    | succ i =>
      have he' : ds[i]? = some e := by simpa using he
      have hpass : regAt d (addressOf e r) = none :=
        regAt_eq_none (not_mem_window_of_apart (hfirst e (List.mem_of_getElem? he')) (addressOf_mem_window e r))
      rw [locateFrom, hpass]
      simpa [Nat.add_assoc, Nat.add_comm 1] using ih (fun x hx => hnodup x (List.mem_cons_of_mem d hx)) hrest he' (k + 1)

theorem window_nodup {addrW : Nat} {d : UnitDesc} (h : unitValid addrW d = true) : (window d).Nodup := by
  simp only [unitValid, Bool.and_eq_true, decide_eq_true_eq] at h
  tauto

theorem allApart_of_valid {p : Params} (hv : paramsValid p = true) : allApart p.table = true := by
  simp only [paramsValid, Bool.and_eq_true] at hv
  tauto

/-- Every register of a valid table is found at its address (20_memory.md R41). -/
theorem locate_addressOf {p : Params} {u : Nat} {d : UnitDesc} (hv : paramsValid p = true) (hd : resolve p u = some d)
    (r : Reg) : locate p (addressOf d r) = some (u, r) := by
  have hnodup : ∀ e ∈ p.table, (window e).Nodup := fun e he =>
    have ⟨_, hi⟩ := List.mem_iff_getElem?.mp he
    window_nodup (unitValid_of_resolve hv hi)
  rw [locate, locateFrom_complete hnodup (allApart_of_valid hv) hd r 0, Nat.zero_add]

/-- Settles O8: the look-up is sound for any table and complete for a valid one. -/
theorem addressNamesOneRegister : Obligations.AddressNamesOneRegister := by
  intro p a u r hv
  refine ⟨locate_sound, ?_⟩
  rintro ⟨d, hd, rfl⟩
  exact locate_addressOf hv hd r

/-! ## Unmapped addresses -/

theorem raise_faultRaised (s : State) (f : ModelFault) : FaultRaised s (s.raise f) f := by
  refine ⟨?_, fun g => mem_raise_faults s f g⟩
  unfold State.raise
  split <;> rfl

/-- Settles O9: what no register has as its address the look-up does not find. -/
theorem unmappedAccessFaults : Obligations.UnmappedAccessFaults := by
  intro s addr v hun
  have hnone : locate s.cfg addr.toNat = none := by
    refine Option.eq_none_iff_forall_ne_some.mpr fun ⟨u, r⟩ h => ?_
    obtain ⟨d, hd, ha⟩ := locate_sound h
    exact hun u d r hd ha
  refine ⟨⟨_, ?_, raise_faultRaised s _⟩, ⟨_, ?_, raise_faultRaised s _⟩⟩
  · simp [exec, execBusRd, hnone]
  · simp [exec, execBusWr, hnone]

/-! ## Mapped addresses, outside MAIN's duty -/

/-- Duty (a) of 60_exceptions.md R112: the unit a running command configures is not MAIN's to access. -/
theorem breaksUnitDuty_iff (s : State) (u : Nat) :
    s.breaksUnitDuty u = true ↔ s.agent = .main ∧ s.phase ≠ .idle ∧ u = s.lat.unit.toNat := by
  simp [State.breaksUnitDuty, State.dutyBound, State.busy, and_assoc]

section Mapped

variable {s : State} {addr : BusAddr} {u : Nat} {d : UnitDesc} {r : Reg} (hv : paramsValid s.cfg = true)
  (hd : resolve s.cfg u = some d) (haddr : addr.toNat = addressOf d r) (hfree : ¬ s.breaksUnitDuty u = true)
include hv hd haddr hfree

theorem exec_busRd_mapped :
    exec (.busRd addr) s = .next { (s.regRead u r).2 with busOut := (s.regRead u r).1 } := by
  simp [exec, execBusRd, haddr, locate_addressOf hv hd r, hfree]

theorem exec_busWr_mapped (v : Byte) : exec (.busWr addr v) s = .next (s.hostWrite u d r v) := by
  simp [exec, execBusWr, haddr, locate_addressOf hv hd r, hfree, hd]

end Mapped

/-- A gated unit and DATA answer a free value (20_memory.md R43, R44). -/
theorem regRead_of_free {s : State} {u : Nat} {r : Reg} (h : s.gated u = true ∨ r = .data) :
    s.regRead u r = (Config.drawByte s.draws, s.advance 1) := if_pos h

theorem regRead_of_powered {s : State} {u : Nat} {r : Reg} (hg : s.gated u = false) (hr : r ≠ .data) :
    s.regRead u r = ((s.regsOf u).get r, s) := if_neg (by simp [hg, hr])

/-- Settles O11: BUS.RD is RegRead with its byte returned. -/
theorem busReadReturnsRegister : Obligations.BusReadReturnsRegister := by
  intro s addr u d r hv hd haddr hfree
  refine ⟨_, exec_busRd_mapped hv hd haddr ((breaksUnitDuty_iff s u).not.mpr hfree), fun h => ?_, fun hg hr => ?_⟩
  · rw [regRead_of_free h]; rfl
  · rw [regRead_of_powered hg hr]
    refine ⟨rfl, ?_, ?_, ?_, ?_, ?_⟩ <;> rintro rfl <;> rfl

/-- The byte a host write stores: in STATUS the bits of TC and RIP are `free`'s (20_memory.md R45). -/
def hostStored (d : UnitDesc) (r : Reg) (v free : Byte) : Byte := if r = .status then withLineBits d v free else v

/-- A gated unit ignores a host write, and DATA has none (20_memory.md R43, R45). -/
theorem hostWrite_of_ignored {s : State} {u : Nat} {r : Reg} (d : UnitDesc) (v : Byte) (h : s.gated u = true ∨ r = .data) :
    s.hostWrite u d r v = s := by
  unfold State.hostWrite
  obtain hg | rfl := h
  · exact if_pos hg
  · exact ite_self s

/-- Any other host write replaces one register of a powered unit. -/
theorem hostWrite_of_powered {s : State} {u : Nat} {r : Reg} (d : UnitDesc) (v : Byte) (hg : s.gated u = false) (hr : r ≠ .data) :
    s.hostWrite u d r v =
      (s.setRegs u ((s.regsOf u).set r (hostStored d r v (Config.drawByte s.draws)))).advance (if r = .status then 1 else 0) := by
  have hpowered : ¬ s.gated u = true := by simp [hg]
  unfold State.hostWrite
  rw [if_neg hpowered]
  cases r with
  | data => exact absurd rfl hr
  | status | ctrla | ctrlb | divl | divh => rfl

/-- Settles O12: the write is ignored, or replaces one register of one unit. -/
theorem busWriteStoresRegister : Obligations.BusWriteStoresRegister := by
  intro s addr v u d r hv hd haddr hfree
  refine ⟨_, exec_busWr_mapped hv hd haddr ((breaksUnitDuty_iff s u).not.mpr hfree) v, hostWrite_of_ignored d v,
    fun hg hr => ?_⟩
  rw [hostWrite_of_powered d v hg hr]
  simp only [advance_regsOf, setRegs_regsOf, if_true]
  refine ⟨?_, fun w hw => if_neg hw, fun q hq => get_set_other _ _ hq, ?_, ?_, ?_, ?_, ?_⟩
  · split <;> rfl
  · rintro rfl; rfl
  · rintro rfl; rfl
  · rintro rfl; rfl
  · rintro rfl; rfl
  · rintro rfl i hi
    exact getLsbD_withLineBits d v _ i hi

/-! ## A host write of a power-reduction register -/

/-- Duty (c) of 60_exceptions.md R112: the power-reduction register of the unit a running command configures. -/
theorem breaksPrDuty_iff (s : State) (id : Nat) :
    s.breaksPrDuty id = true ↔
      s.agent = .main ∧ s.phase ≠ .idle ∧ ∃ d, resolve s.cfg s.lat.unit.toNat = some d ∧ d.prId = id := by
  cases hd : resolve s.cfg s.lat.unit.toNat with
  | none => simp [State.breaksPrDuty, hd]
  | some d => simp [State.breaksPrDuty, State.dutyBound, State.busy, hd, and_assoc]

theorem prNamed_of_resolve {p : Params} {u : Nat} {d : UnitDesc} (hd : resolve p u = some d) : prNamed p d.prId = true :=
  List.any_eq_true.mpr ⟨d, List.mem_of_getElem? hd, by simp⟩

/-- Outside the duty a host write of a named register is a write of PR (10_state.md R25). -/
theorem hostPrWrite_eq_prWrite {s : State} {id : Nat} (v : Byte) (hduty : ¬ s.breaksPrDuty id = true)
    (hid : prNamed s.cfg id = true) : s.hostPrWrite id v = s.prWrite id v := by
  rw [State.hostPrWrite, if_neg hduty, if_pos hid]

theorem ungates_iff_of_resolve {s : State} {w : Nat} {d : UnitDesc} (id : Nat) (v : Byte) (hd : resolve s.cfg w = some d) :
    s.ungates id v w = true ↔ d.prId = id ∧ (s.prOf id).getLsbD d.prBit.val = true ∧ v.getLsbD d.prBit.val = false := by
  simp [State.ungates, hd, and_assoc]

theorem nUnits_le_sixteen {p : Params} (hv : paramsValid p = true) : p.nUnits ≤ 16 := by
  simp only [paramsValid, Bool.and_eq_true, decide_eq_true_eq] at hv
  tauto

/-- The six free values of an ungated unit are among those the write sets aside. -/
theorem le_prWrite_draws {s : State} {id : Nat} {v : Byte} {w : Nat} (hv : paramsValid s.cfg = true)
    (h : s.ungates id v w = true) : s.draws + 6 * w + 6 ≤ (s.prWrite id v).draws := by
  have hw := ungates_lt h
  have hn := nUnits_le_sixteen hv
  rw [prWrite_draws, if_pos ⟨w, hw, h⟩]
  omega

/-- A write of PR draws the registers of a unit whose bit it takes from 1 to 0, and keeps every other unit's (20_memory.md R43). -/
theorem prWrite_regsOf_of_resolve (s : State) {w : Nat} {d : UnitDesc} (id : Nat) (v : Byte)
    (hv : paramsValid s.cfg = true) (hd : resolve s.cfg w = some d) :
    (d.prId = id ∧ (s.prOf id).getLsbD d.prBit.val = true ∧ v.getLsbD d.prBit.val = false →
      (s.prWrite id v).regsOf w = UnitRegs.drawn (s.draws + 6 * w) ∧ s.draws + 6 * w + 6 ≤ (s.prWrite id v).draws) ∧
    (¬(d.prId = id ∧ (s.prOf id).getLsbD d.prBit.val = true ∧ v.getLsbD d.prBit.val = false) →
      (s.prWrite id v).regsOf w = s.regsOf w) := by
  rw [← ungates_iff_of_resolve id v hd, prWrite_regsOf]
  exact ⟨fun h => ⟨if_pos h, le_prWrite_draws hv h⟩, fun h => if_neg h⟩

theorem prWrite_regsOf_of_resolve_none (s : State) {w : Nat} (id : Nat) (v : Byte) (hd : resolve s.cfg w = none) :
    (s.prWrite id v).regsOf w = s.regsOf w := by
  rw [prWrite_regsOf, if_neg]
  simp [State.ungates, hd]

/-- Settles O40: the write is enabled and breaks no duty, so it is a write of PR. -/
theorem hostPowerWriteUngates : Obligations.HostPowerWriteUngates := by
  rintro s a id v rest hv ha hs ⟨u, d, hd, rfl⟩ hfree
  have henabled : s.hostEnabled a (.prWrite d.prId v) = true :=
    (hostEnabled_iff s a _).mpr (ha.imp_right fun hie => ⟨hie, by simp⟩)
  have hduty : ¬ State.breaksPrDuty { s with sched := rest, agent := a } d.prId = true :=
    fun h => hfree ((breaksPrDuty_iff _ d.prId).mp h)
  refine ⟨State.prWrite { s with sched := rest, agent := a } d.prId v, ?_, rfl, fun j => prWrite_prOf _ d.prId j v,
    fun w e he => prWrite_regsOf_of_resolve { s with sched := rest, agent := a } d.prId v hv he,
    fun w hw => prWrite_regsOf_of_resolve_none { s with sched := rest, agent := a } d.prId v hw⟩
  rw [step_of_enabled_turn hv hs henabled, hostAct, hostPrWrite_eq_prWrite v hduty (prNamed_of_resolve hd)]

end Sys2Proof.Proofs
end

section
/-! PROOFS. The encoding: the decoder and the encoder undo each other at each of the four interfaces. -/

namespace Sys2Proof.Proofs

open Sys2Proof.Machine Sys2Proof.Laws

/-! ## Codes of the enumerations -/

@[simp] theorem modeOfBits_bits (m : Mode) : Mode.ofBits m.bits = m := by cases m <;> rfl

@[simp] theorem bits_modeOfBits (b : BitVec 2) : (Mode.ofBits b).bits = b := by revert b; decide

@[simp] theorem stopOfBits_bits (x : Stop) : Stop.ofBits x.bits = x := by cases x <;> rfl

@[simp] theorem bits_stopOfBits (b : BitVec 1) : (Stop.ofBits b).bits = b := by revert b; decide

/-- All sixteen codes are used (30_encoding.md R62). -/
@[simp] theorem code_ofCode (c : BitVec 4) : (Phase.ofCode c).code = c := by revert c; decide

@[simp] theorem encode_phaseInstr (p : Phase) : encode p.instr = .phase4 p.code := by cases p <;> rfl

/-! ## Command words (30_encoding.md R57) -/

section Fields
variable (unit : BitVec 4) (mode : Mode) (stop : Stop) (size : BitVec 4) (par : BitVec 2) (baud : BitVec 32)

/-- Each field of an encoded INIT stands at the bits the layout of R57 gives it. -/
theorem encodeInit_fields {w : CmdWord} (hw : w = encodeInit unit mode stop size par baud) :
    w.extractLsb' 32 32 = baud ∧ w.extractLsb' 28 4 = 1#4 ∧ w.extractLsb' 24 4 = unit ∧
    w.extractLsb' 22 2 = mode.bits ∧ w.extractLsb' 21 1 = stop.bits ∧ w.extractLsb' 17 4 = size ∧
    w.extractLsb' 15 2 = par ∧ w.extractLsb' 0 15 = 0#15 := by
  subst hw
  simp (disch := decide) only [encodeInit, BitVec.extractLsb'_append_eq_of_le, BitVec.extractLsb'_append_eq_of_add_le]
  refine ⟨?_, ?_, ?_, ?_, ?_, ?_, ?_, ?_⟩ <;> exact BitVec.extractLsb'_eq_self

theorem decodeCmd_encodeInit :
    decodeCmd (encodeInit unit mode stop size par baud) = .ok (.init unit mode stop size par baud) := by
  obtain ⟨hbaud, hop, hunit, hmode, hstop, hsize, hpar, hrsv⟩ := encodeInit_fields unit mode stop size par baud rfl
  simp [decodeCmd, hbaud, hop, hunit, hmode, hstop, hsize, hpar, hrsv]

end Fields

/-- A command word is its eight fields, from bit 63 down. -/
theorem append_fields (w : CmdWord) :
    w.extractLsb' 32 32 ++ (w.extractLsb' 28 4 ++ (w.extractLsb' 24 4 ++ (w.extractLsb' 22 2 ++
      (w.extractLsb' 21 1 ++ (w.extractLsb' 17 4 ++ (w.extractLsb' 15 2 ++ w.extractLsb' 0 15)))))) = w := by
  simp only [BitVec.extractLsb'_append_extractLsb'_eq_extractLsb']
  exact BitVec.extractLsb'_eq_self

/-- What decodes at the command port is the word of an INIT: OP and RSV are the only bits no operand holds
(30_encoding.md R59 (a), (b), R60). -/
theorem encode_of_decodeCmd {w : CmdWord} {i : Instr} (h : decodeCmd w = .ok i) : encode i = .cmd64 w := by
  unfold decodeCmd at h
  split_ifs at h with hop hrsv
  cases h
  have hfields := append_fields w
  rw [not_not.mp hop, not_not.mp hrsv] at hfields
  rw [encode, encodeInit, bits_modeOfBits, bits_stopOfBits, hfields]

/-! ## Bus transactions (30_encoding.md R61) -/

theorem decodeBus_of_lt {addrW : Nat} {addr : BusAddr} (h : addr.toNat < 2 ^ addrW) (we : Bool) (data : Byte) :
    decodeBus addrW we addr data = .ok (if we then .busWr addr data else .busRd addr) :=
  if_neg (Nat.not_le.mpr h)

theorem eq_of_decodeBus {addrW : Nat} {we : Bool} {addr : BusAddr} {data : Byte} {i : Instr}
    (h : decodeBus addrW we addr data = .ok i) : i = if we then .busWr addr data else .busRd addr := by
  unfold decodeBus at h
  split at h <;> cases h
  rfl

/-! ## The statements -/

/-- Settles O4: each code is the code of its phase, which decodes to the phase's row. -/
theorem phaseCodesDecode : Obligations.PhaseCodesDecode := by
  intro addrW
  exact ⟨decode_phase addrW .idle, decode_phase addrW .resolve, decode_phase addrW .validate, decode_phase addrW .poll,
    decode_phase addrW .guardAcq, decode_phase addrW .pwrClr, decode_phase addrW .modeSel, decode_phase addrW .dsWrite,
    decode_phase addrW .xckDir, decode_phase addrW .divHi, decode_phase addrW .divLo, decode_phase addrW .frmSizeLo,
    decode_phase addrW .frmSizeHi, decode_phase addrW .frmParity, decode_phase addrW .frmStop, decode_phase addrW .guardRel⟩

/-- Settles O1, by the interface the instruction is encoded for. Of well-formedness only the address's width is needed:
R59 (c) to (e) are checked when the word is executed (log 21). -/
theorem decodeInvertsEncode : Obligations.DecodeInvertsEncode := by
  intro addrW i hwf
  cases i with
  | init unit mode stop size par baud => exact decodeCmd_encodeInit unit mode stop size par baud
  | stat => rfl
  | busRd addr => exact decodeBus_of_lt (of_decide_eq_true hwf) false 0#8
  | busWr addr data => exact decodeBus_of_lt (of_decide_eq_true hwf) true data
  | phaseIdle | phaseResolve | phaseValidate | phasePoll | phaseGuardAcq | phasePwrClr | phaseModeSel | phaseDsWrite
  | phaseXckDir | phaseDivHi | phaseDivLo | phaseFrmSizeLo | phaseFrmSizeHi | phaseFrmParity | phaseFrmStop
  | phaseGuardRel => rfl

/-- Settles O2, by the interface the value arrives at; only a read of the bus carries bits that no operand holds. -/
theorem encodeInvertsDecode : Obligations.EncodeInvertsDecode := by
  intro addrW p i h
  cases p with
  | cmd64 w => exact .inl (encode_of_decodeCmd h)
  | cmdRd => cases h; exact .inl rfl
  | phase4 c => cases h; exact .inl (by rw [encode_phaseInstr, code_ofCode])
  | bustx we addr data =>
    obtain rfl := eq_of_decodeBus h
    cases we with
    | true => exact .inl rfl
    | false => exact .inr ⟨addr, data, rfl, rfl⟩

end Sys2Proof.Proofs
end

section
/-! PROOFS. The phases that report an error: what RESOLVE, VALIDATE and POLL can do, and the stop of a phase whose unit has no record. -/

namespace Sys2Proof.Proofs

open Sys2Proof.Machine Sys2Proof.Laws

/-! ## What the error phases can do -/

/-- What RESOLVE, VALIDATE or POLL (`i`) can do: finish the command, at most a read of STATUS later, or move PHASE on
before the guard with PCNT and, in VALIDATE, DIVQ written. -/
def EndsOrMoves (i : Instr) (s t : State) : Prop :=
  (∃ k c, t = (s.advance k).finish c) ∨
  ∃ p q n k, p.code.toNat < 5 ∧ (i ≠ .phaseValidate → q = s.divq) ∧ t = { s with phase := p, divq := q, pcnt := n, draws := k }

theorem execPhaseResolve_endsOrMoves (s : State) : EveryNext (execPhaseResolve s) (EndsOrMoves .phaseResolve s) := by
  unfold execPhaseResolve
  split
  · exact .next (.inl ⟨0, _, rfl⟩)
  · exact .next (.inr ⟨.validate, s.divq, s.pcnt, s.draws, by decide, fun _ => rfl, rfl⟩)

theorem execPhaseValidate_endsOrMoves (s : State) : EveryNext (execPhaseValidate s) (EndsOrMoves .phaseValidate s) := by
  have toPoll : ∀ q : BitVec 12, EndsOrMoves .phaseValidate s { s with divq := q, pcnt := 0, phase := .poll } := fun q =>
    .inr ⟨.poll, q, 0, s.draws, by decide, fun h => absurd rfl h, rfl⟩
  unfold execPhaseValidate
  split
  · exact .next (toPoll s.divq)
  · split
    · exact .next (.inl ⟨0, _, rfl⟩)
    · next q _ => exact .next (toPoll q)

/-- The read of STATUS takes a free value or none (20_memory.md R43). -/
theorem regRead_state_eq_advance (s : State) (u : Nat) (r : Reg) : ∃ k, (s.regRead u r).2 = s.advance k := by
  obtain h | h := regRead_state s u r
  · exact ⟨0, h⟩
  · exact ⟨1, h⟩

theorem execPhasePoll_endsOrMoves (s : State) : EveryNext (execPhasePoll s) (EndsOrMoves .phasePoll s) := by
  refine everyNext_withUnit fun u d => ?_
  obtain ⟨k, hk⟩ := regRead_state_eq_advance s u .status
  have moves : ∀ p n, p.code.toNat < 5 → EndsOrMoves .phasePoll s { s.advance k with phase := p, pcnt := n } := fun p n hp =>
    .inr ⟨p, s.divq, n, _, hp, fun _ => rfl, rfl⟩
  rw [hk]
  split
  · exact .next (moves .guardAcq s.pcnt (by decide))
  · split
    · exact .next (moves .poll s.pcnt (by decide))
    · split
      · exact .next (.inl ⟨k, _, rfl⟩)
      · exact .next (moves .poll _ (by decide))

theorem exec_endsOrMoves (s : State) {i : Instr} (hi : i = .phaseResolve ∨ i = .phaseValidate ∨ i = .phasePoll) :
    EveryNext (exec i s) (EndsOrMoves i s) := by
  obtain rfl | rfl | rfl := hi
  · exact execPhaseResolve_endsOrMoves s
  · exact execPhaseValidate_endsOrMoves s
  · exact execPhasePoll_endsOrMoves s

/-- Settles O24: finish and the move write the latches, SEQSTAT and PHASE only, and a command that has finished is idle. -/
theorem errorPhasesTouchNoRegister : Obligations.ErrorPhasesTouchNoRegister := by
  intro s t i hi h
  obtain ⟨k, c, rfl⟩ | ⟨p, q, n, k, -, hdivq, rfl⟩ := exec_endsOrMoves s hi t h
  · exact ⟨rfl, fun hrunning => absurd rfl hrunning⟩
  · exact ⟨rfl, fun _ => ⟨rfl, rfl, rfl, rfl, hdivq⟩⟩

/-! ## Units without a record -/

/-- Settles O14, on each side of N_UNITS. -/
theorem resolveChecksUnit : Obligations.ResolveChecksUnit := fun s =>
  ⟨fun hge => ⟨_, if_pos hge, finish_finished s .invalidUnit⟩, fun hlt => if_neg (Nat.not_le.mpr hlt)⟩

/-- Settles O22: the table has no record for the id, and each of these phases asks for it first. -/
theorem unresolvedUnitStops : Obligations.UnresolvedUnitStops := by
  intro s hge
  have hnone : resolve s.cfg s.lat.unit.toNat = none := List.getElem?_eq_none hge
  simp only [exec, execPhasePoll, execPhasePwrClr, execPhaseModeSel, execPhaseDsWrite, execPhaseXckDir, execPhaseDivHi,
    execPhaseDivLo, execPhaseFrmSizeLo, execPhaseFrmSizeHi, execPhaseFrmParity, execPhaseFrmStop, withUnit_none hnone, and_self]

end Sys2Proof.Proofs
end

section
/-! PROOFS. What the phases have written while the guard is held: no turn of any agent undoes it, and GUARD_REL delivers all of it. -/

namespace Sys2Proof.Proofs

open Sys2Proof.Machine Sys2Proof.Laws Sys2Proof.Claims

/-! ## Register fields -/

/-- A field of a register of unit `u` has the value `v`. -/
def FieldHolds (s : State) (u : Nat) (f : RegField) (v : BitVec f.width) : Prop :=
  fieldOf ((s.regsOf u).get f.reg) f.lo f.width = v

/-- Two fields share no bit of a register. -/
def Apart (f g : RegField) : Prop := f.reg ≠ g.reg ∨ f.lo + f.width ≤ g.lo ∨ g.lo + g.width ≤ f.lo

theorem apart_symm : Std.Symm Apart where
  symm
    | _, _, .inl h => .inl h.symm
    | _, _, .inr (.inl h) => .inr (.inr h)
    | _, _, .inr (.inr h) => .inr (.inl h)

/-- The field lies inside its register; DIVH has four bits (10_state.md R22). -/
def Fits (f : RegField) : Prop := f.lo + f.width ≤ 8 ∧ (f.reg = .divh → f.lo + f.width ≤ 4)

theorem fieldOf_congr {x y : Byte} {lo w : Nat} (h : ∀ i, lo ≤ i → i < lo + w → x.getLsbD i = y.getLsbD i) :
    fieldOf x lo w = fieldOf y lo w := by
  refine BitVec.eq_of_getLsbD_eq fun i hi => ?_
  simp [fieldOf, hi, h (lo + i) (by omega) (by omega)]

theorem fieldOf_divh (x : UnitRegs) : fieldOf (x.get .divh) 0 4 = x.divh := by
  refine BitVec.eq_of_getLsbD_eq fun i hi => ?_
  simp [fieldOf, getLsbD_divh, hi]

theorem fieldOf_byte (x : Byte) : fieldOf x 0 8 = x := BitVec.extractLsb'_eq_self

section FieldWrites

variable {s t : State} {u : Nat} {f : RegField} {v : BitVec f.width} {p : Phase} (h : FieldWritten s t u f v p)
  (hpowered : s.gated u = false)
include h hpowered

/-- A field of a powered unit reads back as written (20_memory.md R46). -/
theorem fieldHolds_of_fieldWritten (hf : Fits f) : FieldHolds t u f v := by
  obtain ⟨h8, -⟩ := hf
  obtain ⟨-, -, -, hregs⟩ := h
  obtain ⟨-, hbits⟩ := hregs hpowered
  refine BitVec.eq_of_getLsbD_eq fun i hi => ?_
  rw [fieldOf, BitVec.getLsbD_extractLsb', hbits _ (by omega)]
  simp [hi]

/-- A field that shares no bit with the written one keeps its value. -/
theorem fieldOf_of_fieldWritten {g : RegField} (hg : Fits g) (hap : Apart f g) :
    fieldOf ((t.regsOf u).get g.reg) g.lo g.width = fieldOf ((s.regsOf u).get g.reg) g.lo g.width := by
  obtain ⟨h8, -⟩ := hg
  obtain ⟨-, -, -, hregs⟩ := h
  obtain ⟨hother, hbits⟩ := hregs hpowered
  by_cases hreg : g.reg = f.reg
  · refine fieldOf_congr fun i hlo hhi => ?_
    have hout : ¬(f.lo ≤ i ∧ i < f.lo + f.width) := by
      have := hap.resolve_left (fun hne => hne hreg.symm)
      omega
    rw [hreg, hbits i (by omega), if_neg hout]
  · rw [hother g.reg hreg]

end FieldWrites

/-- LINE keeps every field that shares no bit with TC and RIP (00_scope.md R12). -/
theorem lineWrite_fieldOf (s : State) (u : Nat) (d : UnitDesc) (tc rip : Bool) {g : RegField} (hg : Fits g)
    (htc : Apart ⟨.status, d.posTC.val, 1⟩ g) (hrip : Apart ⟨.status, d.posRIP.val, 1⟩ g) :
    fieldOf (((s.lineWrite u d tc rip).regsOf u).get g.reg) g.lo g.width = fieldOf ((s.regsOf u).get g.reg) g.lo g.width := by
  obtain ⟨h8, -⟩ := hg
  by_cases hreg : g.reg = .status
  · refine fieldOf_congr fun i hlo hhi => ?_
    have hout : ¬(i = d.posTC.val ∨ i = d.posRIP.val) := by
      simp only [Apart, hreg, ne_eq, not_true_eq_false, false_or] at htc hrip
      omega
    rw [hreg]
    exact (lineWrite_getLsbD_status s u d tc rip i (by omega)).trans (if_neg hout)
  · rw [lineWrite_regsOf, if_pos rfl, get_set_other _ _ hreg]

/-! ## The fields the phases write -/

/-- A field and the value a phase writes to it. -/
structure FieldValue where
  field : RegField
  value : BitVec field.width

/-- What each phase under the guard writes to the unit's registers, for the latched command `l` and DIVQ = `q`
(42_mode_clock.md R96 to R100, 43_frame.md R104 to R107). -/
def fieldsWritten (l : Latch) (q : BitVec 12) (d : UnitDesc) : List (Phase × FieldValue) :=
  [(.modeSel, ⟨fieldMode d, modeCode l.mode⟩), (.dsWrite, ⟨fieldDs d, dsCode l.mode⟩),
   (.divHi, ⟨fieldDivHi, q.extractLsb' 8 4⟩), (.divLo, ⟨fieldDivLo, q.extractLsb' 0 8⟩),
   (.frmSizeLo, ⟨fieldSzlo d, szlo l.size⟩), (.frmSizeHi, ⟨fieldSzhi d, szhi l.size⟩),
   (.frmParity, ⟨fieldPar d, parCode l.parity⟩), (.frmStop, ⟨fieldStop d, stopCode l.stop⟩)]

theorem fits_of_mem_fieldsWritten {l : Latch} {q : BitVec 12} {d : UnitDesc} {x : Phase × FieldValue}
    (hx : x ∈ fieldsWritten l q d) : Fits x.2.field := by
  have := d.posMODE.isLt
  have := d.posDS.isLt
  have := d.posSZLO.isLt
  have := d.posSZHI.isLt
  have := d.posPAR.isLt
  have := d.posSTOP.isLt
  simp only [fieldsWritten, List.mem_cons, List.not_mem_nil, or_false] at hx
  obtain rfl | rfl | rfl | rfl | rfl | rfl | rfl | rfl := hx <;> simp [Fits] <;> omega

theorem mem_fieldsWritten_of_lookup {l : Latch} {q : BitVec 12} {d : UnitDesc} {p : Phase} {v : FieldValue}
    (h : (fieldsWritten l q d).lookup p = some v) : (p, v) ∈ fieldsWritten l q d := by
  obtain ⟨l₁, l₂, hsplit, -⟩ := List.lookup_eq_some_iff.mp h
  simp [hsplit]

/-- No phase writes two fields. -/
theorem eq_of_mem_fieldsWritten {l : Latch} {q : BitVec 12} {d : UnitDesc} {p : Phase} {v w : FieldValue}
    (hv : (p, v) ∈ fieldsWritten l q d) (hw : (p, w) ∈ fieldsWritten l q d) : v = w := by
  have hkeys : ((fieldsWritten l q d).map Prod.fst).Nodup := by simp [fieldsWritten]
  exact congrArg Prod.snd (List.inj_on_of_nodup_map hkeys hv hw rfl)

/-- Two two-bit fields without a common bit lie side by side. -/
theorem pair_apart_pair {a b : Nat} (h : a ≠ b) (hb : a ≠ b + 1) (ha : a + 1 ≠ b) : a + 2 ≤ b ∨ b + 2 ≤ a := by omega

theorem pair_apart_bit {a b : Nat} (h : a ≠ b) (ha : a + 1 ≠ b) : a + 2 ≤ b ∨ b < a := by omega

/-- TC, RIP and the fields the phases write share no bit of a valid unit's registers (10_state.md R17 (c), (d)). -/
theorem pairwise_apart {addrW : Nat} {d : UnitDesc} (hd : unitValid addrW d = true) (l : Latch) (q : BitVec 12) :
    ((⟨.status, d.posTC.val, 1⟩ :: ⟨.status, d.posRIP.val, 1⟩ :: (fieldsWritten l q d).map (·.2.field)) : List RegField).Pairwise Apart := by
  simp only [unitValid, Bool.and_eq_true, decide_eq_true_eq] at hd
  obtain ⟨⟨⟨-, hstatus⟩, hctrla⟩, -⟩ := hd
  simp only [List.nodup_cons, List.mem_cons, List.not_mem_nil, or_false, not_or] at hstatus
  simp only [ctrlaBits, List.nodup_cons, List.mem_cons, List.not_mem_nil, or_false, not_or] at hctrla
  obtain ⟨⟨htcRip, htcDs⟩, hripDs, -⟩ := hstatus
  obtain ⟨⟨-, hmp, hmp1, hml, hml1, hms, -⟩, ⟨hm1p, -, hm1l, -, hm1s, -⟩, ⟨-, hpl, hpl1, hps, -⟩, ⟨hp1l, -, hp1s, -⟩,
    ⟨-, hls, -⟩, ⟨hl1s, -⟩, -⟩ := hctrla
  simp [fieldsWritten, Apart, htcRip, htcDs, hripDs, pair_apart_pair hml hml1 hm1l,
    pair_apart_pair hmp hmp1 hm1p, pair_apart_bit hms hm1s, (pair_apart_pair hpl hpl1 hp1l).symm, pair_apart_bit hls hl1s,
    pair_apart_bit hps hp1s]

theorem apart_of_mem_fieldsWritten {addrW : Nat} {d : UnitDesc} (hd : unitValid addrW d = true) {l : Latch} {q : BitVec 12}
    {x y : Phase × FieldValue} (hx : x ∈ fieldsWritten l q d) (hy : y ∈ fieldsWritten l q d) (hne : x ≠ y) :
    Apart x.2.field y.2.field := by
  have : Std.Symm fun x y : Phase × FieldValue => Apart x.2.field y.2.field := ⟨fun _ _ => apart_symm.symm _ _⟩
  have hpairwise := List.pairwise_map.mp (pairwise_apart hd l q).of_cons.of_cons
  exact hpairwise.forall hx hy hne

theorem lineFlags_apart {addrW : Nat} {d : UnitDesc} (hd : unitValid addrW d = true) {l : Latch} {q : BitVec 12}
    {x : Phase × FieldValue} (hx : x ∈ fieldsWritten l q d) :
    Apart ⟨.status, d.posTC.val, 1⟩ x.2.field ∧ Apart ⟨.status, d.posRIP.val, 1⟩ x.2.field := by
  obtain ⟨htc, hrest⟩ := List.pairwise_cons.mp (pairwise_apart hd l q)
  obtain ⟨hrip, -⟩ := List.pairwise_cons.mp hrest
  have hmem : x.2.field ∈ (fieldsWritten l q d).map (·.2.field) := List.mem_map_of_mem hx
  exact ⟨htc _ (List.mem_cons_of_mem _ hmem), hrip _ hmem⟩

/-! ## What stands -/

/-- A command in mode `m` visits the phase `p` under the guard (41_sequencer.md R81, 42_mode_clock.md R98 to R100). -/
def Visits (m : Mode) (p : Phase) : Prop :=
  5 ≤ p.code.toNat ∧ (p = .xckDir → m = .ms ∨ m = .ss) ∧ (p = .divHi ∨ p = .divLo → m ≠ .ss)

/-- What phase `p` has done for the latched command and its unit `d` holds in `s`. -/
def Standing (s : State) (d : UnitDesc) (p : Phase) : Prop :=
  (p = .pwrClr → s.gated s.lat.unit.toNat = false) ∧
  (p = .xckDir → ∀ x, xckDirection s.lat.mode = some x → s.dirOf d.xckPin = x) ∧
  ∀ v, (p, v) ∈ fieldsWritten s.lat s.divq d → FieldHolds s s.lat.unit.toNat v.field v.value

/-- Configured, phase by phase: what each visited phase that is over has done stands. -/
theorem configured_iff (s : State) :
    s.Configured ↔ ∀ d, resolve s.cfg s.lat.unit.toNat = some d → ∀ p, s.Past p → Visits s.lat.mode p → Standing s d p := by
  constructor
  · intro h d hd p hpast ⟨_, _, hdiv⟩
    obtain ⟨hpwr, hmode, hds, hxck, hdivhi, hdivlo, hszlo, hszhi, hpar, hstop⟩ := h d hd
    refine ⟨fun hp => hpwr (hp ▸ hpast), fun hp => hxck (hp ▸ hpast), fun v hv => ?_⟩
    simp only [fieldsWritten, List.mem_cons, Prod.mk.injEq, List.not_mem_nil, or_false] at hv
    obtain ⟨rfl, rfl⟩ | ⟨rfl, rfl⟩ | ⟨rfl, rfl⟩ | ⟨rfl, rfl⟩ | ⟨rfl, rfl⟩ | ⟨rfl, rfl⟩ | ⟨rfl, rfl⟩ | ⟨rfl, rfl⟩ := hv
    · exact hmode hpast
    · exact hds hpast
    · exact (fieldOf_divh _).trans (hdivhi hpast (hdiv (.inl rfl)))
    · exact (fieldOf_byte _).trans (hdivlo hpast (hdiv (.inr rfl)))
    · exact hszlo hpast
    · exact hszhi hpast
    · exact hpar hpast
    · exact hstop hpast
  · intro h d hd
    have field : ∀ x ∈ fieldsWritten s.lat s.divq d, Visits s.lat.mode x.1 → s.Past x.1 →
        FieldHolds s s.lat.unit.toNat x.2.field x.2.value := fun x hx hvisits hpast =>
      have ⟨_, _, hfield⟩ := h d hd x.1 hpast hvisits
      hfield x.2 hx
    simp only [fieldsWritten, List.forall_mem_cons] at field
    obtain ⟨hmode, hds, hdivhi, hdivlo, hszlo, hszhi, hpar, hstop, -⟩ := field
    refine ⟨fun hpast => ?_, hmode (by simp [Visits, Phase.code]), hds (by simp [Visits, Phase.code]), fun hpast x hx => ?_,
      fun hpast hss => ?_, fun hpast hss => ?_, hszlo (by simp [Visits, Phase.code]), hszhi (by simp [Visits, Phase.code]),
      hpar (by simp [Visits, Phase.code]), hstop (by simp [Visits, Phase.code])⟩
    · obtain ⟨hpwr, -, -⟩ := h d hd .pwrClr hpast (by simp [Visits, Phase.code])
      exact hpwr rfl
    · have hmode : s.lat.mode = .ms ∨ s.lat.mode = .ss := by cases hm : s.lat.mode <;> simp [hm, xckDirection] at hx ⊢
      obtain ⟨-, hxck, -⟩ := h d hd .xckDir hpast (by simp [Visits, Phase.code, hmode])
      exact hxck rfl x hx
    · exact (fieldOf_divh _).symm.trans (hdivhi (by simp [Visits, Phase.code, hss]) hpast)
    · exact (fieldOf_byte _).symm.trans (hdivlo (by simp [Visits, Phase.code, hss]) hpast)

/-- Before the guard's first write is over Configured says nothing. -/
theorem configured_of_not_past {s : State} (h : ¬ s.Past .pwrClr) : s.Configured :=
  (configured_iff s).mpr fun _ _ _ hpast ⟨hp, _⟩ => absurd (lt_of_le_of_lt hp hpast) h

/-- `t` keeps what phase `p` has done in `s`. -/
def Keeps (s t : State) (d : UnitDesc) (p : Phase) : Prop :=
  t.gated s.lat.unit.toNat = s.gated s.lat.unit.toNat ∧
  (p = .xckDir → t.dirOf d.xckPin = s.dirOf d.xckPin) ∧
  ∀ v, (p, v) ∈ fieldsWritten s.lat s.divq d →
    fieldOf ((t.regsOf s.lat.unit.toNat).get v.field.reg) v.field.lo v.field.width =
      fieldOf ((s.regsOf s.lat.unit.toNat).get v.field.reg) v.field.lo v.field.width

theorem standing_of_keeps {s t : State} {d : UnitDesc} {p : Phase} (h : Standing s d p) (hkeeps : Keeps s t d p)
    (hlat : t.lat = s.lat) (hdivq : t.divq = s.divq) : Standing t d p := by
  obtain ⟨hpwr, hxck, hfield⟩ := h
  obtain ⟨hgated, hdir, hregs⟩ := hkeeps
  unfold Standing
  rw [hlat, hdivq]
  exact ⟨fun hp => hgated.trans (hpwr hp), fun hp x hx => (hdir hp).trans (hxck hp x hx),
    fun v hv => (hregs v hv).trans (hfield v hv)⟩

/-- Configured is kept when every visited phase that is over in `t` was over in `s` and is kept, or stands anew. -/
theorem configured_of_keeps {s t : State} (hs : s.Configured) (hsame : t.lat = s.lat ∧ t.divq = s.divq ∧ t.cfg = s.cfg)
    (h : ∀ d, resolve s.cfg s.lat.unit.toNat = some d → ∀ p, t.Past p → Visits s.lat.mode p →
      s.Past p ∧ Keeps s t d p ∨ Standing t d p) : t.Configured := by
  obtain ⟨hlat, hdivq, hcfg⟩ := hsame
  rw [configured_iff, hcfg, hlat]
  intro d hd p hpast hvisits
  obtain ⟨hover, hkeeps⟩ | hnew := h d hd p hpast hvisits
  · exact standing_of_keeps ((configured_iff s).mp hs d hd p hover hvisits) hkeeps hlat hdivq
  · exact hnew

/-! ## SEQ's phases under the guard -/

theorem everyNext_withUnit_of_resolve {s : State} {k : Nat → UnitDesc → Host.Outcome State Fault Refusal} {P : State → Prop}
    (h : ∀ d, resolve s.cfg s.lat.unit.toNat = some d → EveryNext (k s.lat.unit.toNat d) P) : EveryNext (withUnit s k) P :=
  fun t ht =>
    have ⟨d, hd, hk⟩ := withUnit_next ht
    h d hd t hk

theorem phase_eq_of_code {p q : Phase} (h : p.code.toNat = q.code.toNat) : p = q := by
  rw [← ofCode_code p, ← ofCode_code q, BitVec.eq_of_toNat_eq h]

/-- From `p` a command in mode `m` goes to `q`: the phases between the two are not visited. -/
def NextVisited (m : Mode) (p q : Phase) : Prop :=
  ∀ r, Visits m r → r.code.toNat < q.code.toNat → r.code.toNat < p.code.toNat ∨ r = p

theorem nextVisited_of_succ {m : Mode} {p q : Phase} (h : q.code.toNat = p.code.toNat + 1) : NextVisited m p q := fun _ _ hr =>
  (Nat.lt_succ_iff_lt_or_eq.mp (lt_of_lt_of_eq hr h)).imp_right phase_eq_of_code

/-- A phase the mode does not visit is passed over. -/
theorem NextVisited.skip {m : Mode} {p o q : Phase} (ho : NextVisited m p o) (hnot : ¬ Visits m o)
    (h : q.code.toNat = o.code.toNat + 1) : NextVisited m p q := fun r hvisits hr =>
  (nextVisited_of_succ h r hvisits hr).elim (ho r hvisits) fun heq => absurd (heq ▸ hvisits) hnot

/-- DS_WRITE passes over XCK_DIR in NA and DA. -/
theorem nextVisited_dsWrite (m : Mode) : NextVisited m .dsWrite (afterDsWrite m) := by
  have toXckDir : NextVisited m .dsWrite .xckDir := nextVisited_of_succ rfl
  cases m with
  | na | da => exact toXckDir.skip (by simp [Visits]) rfl
  | ms | ss => exact toXckDir

/-- XCK_DIR passes over the divisor's phases in SS. -/
theorem nextVisited_xckDir_ss : NextVisited .ss .xckDir .frmSizeLo :=
  have toDivHi : NextVisited .ss .xckDir .divHi := nextVisited_of_succ rfl
  have toDivLo : NextVisited .ss .xckDir .divLo := toDivHi.skip (by simp [Visits]) rfl
  toDivLo.skip (by simp [Visits]) rfl

theorem sameSequencer_clearBit (s : State) (d : UnitDesc) : SameSequencer s (s.clearBit d.prId d.prBit) :=
  sameSequencer_prWrite s d.prId _

/-- clear_bit of the unit's bit powers it (41_sequencer.md R89). -/
theorem clearBit_gated {s : State} {u : Nat} {d : UnitDesc} (hd : resolve s.cfg u = some d) :
    (s.clearBit d.prId d.prBit).gated u = false := by
  rw [State.gated, clearBit_cfg, hd]
  simp only [State.clearBit, prWrite_prOf, if_true]
  rw [getLsbD_clear _ _ _ d.prBit.isLt, if_pos rfl]

/-- Up to GUARD_ACQ nothing is written. -/
theorem configured_of_endsOrMoves {i : Instr} {s t : State} (h : EndsOrMoves i s t) : t.Configured := by
  obtain ⟨k, c, rfl⟩ | ⟨p, q, n, k, hp, -, rfl⟩ := h
  · exact configured_of_idle rfl
  · exact configured_of_not_past fun hpast => absurd hpast (lt_asymm hp)

section SeqPhase

variable {s : State} (hs : s.Configured)
include hs

/-- A phase keeps Configured if it keeps what is done and its own work stands. -/
theorem setPhase_configured {p q : Phase} (hp : s.phase = p) (hq : NextVisited s.lat.mode p q) {r : State} (hr : SameSequencer s r)
    (hkeeps : ∀ d, resolve s.cfg s.lat.unit.toNat = some d → ∀ o, s.Past o → Visits s.lat.mode o → Keeps s r d o)
    (hnew : ∀ d, resolve s.cfg s.lat.unit.toNat = some d → Standing r d p) : (r.setPhase q).Configured := by
  obtain ⟨-, hlat, hdivq, -, -, -, hcfg⟩ := hr
  refine configured_of_keeps hs ⟨hlat, hdivq, hcfg⟩ fun d hd o hpast hvisits => ?_
  obtain hover | rfl := hq o hvisits hpast
  · have hover' : s.Past o := (past_iff_of_phase hp).mpr hover
    exact .inl ⟨hover', hkeeps d hd o hover' hvisits⟩
  · exact .inr (hnew d hd)

/-- PWR_CLR powers the unit; nothing is done under the guard before it. -/
theorem execPhasePwrClr_configured (hp : s.phase = .pwrClr) : EveryNext (execPhasePwrClr s) State.Configured := by
  refine everyNext_withUnit_of_resolve fun d hd => .next ?_
  refine setPhase_configured hs hp (nextVisited_of_succ rfl) (sameSequencer_clearBit s d) (fun _ _ o hpast ⟨ho, _⟩ => ?_) fun e he => ?_
  · exact absurd ((past_iff_of_phase hp).mp hpast) (not_lt.mpr ho)
  · obtain rfl : d = e := Option.some.inj (hd.symm.trans he)
    exact ⟨fun _ => clearBit_gated hd, nofun, fun v hv => by simp [fieldsWritten] at hv⟩

/-- A phase that writes the clock pin keeps the fields, and the earlier phases write no pin. -/
theorem setDirection_configured (hp : s.phase = .xckDir) {x : Dir} (hx : xckDirection s.lat.mode = some x) {q : Phase}
    (hq : NextVisited s.lat.mode .xckDir q) {d : UnitDesc} (hd : resolve s.cfg s.lat.unit.toNat = some d) :
    ((s.setDirection d.xckPin x).setPhase q).Configured := by
  refine setPhase_configured hs hp hq (sameSequencer_setDirection s d.xckPin x) (fun _ _ o hpast _ => ?_) fun e he => ?_
  · exact ⟨rfl, fun ho => absurd ((past_iff_of_phase hp).mp (ho ▸ hpast)) (lt_irrefl _), fun _ _ => rfl⟩
  · obtain rfl : d = e := Option.some.inj (hd.symm.trans he)
    refine ⟨nofun, fun _ y hy => ?_, fun v hv => by simp [fieldsWritten] at hv⟩
    obtain rfl : x = y := Option.some.inj (hx.symm.trans hy)
    exact (setDirection_dirOf s _ _ x).trans (if_pos rfl)

theorem execPhaseXckDir_configured (hp : s.phase = .xckDir) : EveryNext (execPhaseXckDir s) State.Configured := by
  refine everyNext_withUnit_of_resolve fun d hd => ?_
  split
  · next hm => exact .next (setDirection_configured hs hp (by simp [hm, xckDirection]) (nextVisited_of_succ rfl) hd)
  · next hm => exact .next (setDirection_configured hs hp (by simp [hm, xckDirection]) (hm ▸ nextVisited_xckDir_ss) hd)
  · exact .next hs
  · exact .next hs

theorem gated_of_past (hpast : s.Past .pwrClr) {d : UnitDesc} (hd : resolve s.cfg s.lat.unit.toNat = some d) :
    s.gated s.lat.unit.toNat = false :=
  have ⟨hpwr, _⟩ := hs d hd
  hpwr hpast

/-- A phase that writes a field of a powered unit keeps the fields of the other phases. -/
theorem fieldPhase_configured (hv : paramsValid s.cfg = true) {p q : Phase} (hp : s.phase = p)
    (hpast : Phase.pwrClr.code.toNat < p.code.toNat) (hxck : p ≠ .xckDir) (hq : NextVisited s.lat.mode p q)
    (v : UnitDesc → FieldValue) (hwrites : ∀ d, (fieldsWritten s.lat s.divq d).lookup p = some (v d)) :
    EveryNext (withUnit s fun u d => .next ((s.fieldWrite u (v d).field (v d).value).setPhase q)) State.Configured := by
  refine everyNext_withUnit_of_resolve fun d hd => .next ?_
  have hvalid := unitValid_of_resolve hv hd
  have hmem := mem_fieldsWritten_of_lookup (hwrites d)
  have hpowered := gated_of_past hs ((past_iff_of_phase hp).mpr hpast) hd
  have hfits := fits_of_mem_fieldsWritten hmem
  have ⟨h8, h4⟩ := hfits
  have hwritten := fieldWrite_setPhase_written s s.lat.unit.toNat (v d).field (v d).value q h8 h4
  refine setPhase_configured hs hp hq (sameSequencer_fieldWrite s _ (v d).field (v d).value) (fun e he o hover _ => ?_) fun e he => ?_
  all_goals obtain rfl : d = e := Option.some.inj (hd.symm.trans he)
  · have hne : o ≠ p := fun h => absurd ((past_iff_of_phase hp).mp hover) (h ▸ lt_irrefl _)
    exact ⟨fieldWrite_gated .., fun _ => fieldWrite_dirOf .., fun w hw =>
      fieldOf_of_fieldWritten hwritten hpowered (fits_of_mem_fieldsWritten hw)
        (apart_of_mem_fieldsWritten hvalid hmem hw fun h => hne (congrArg Prod.fst h).symm)⟩
  · rw [Standing, fieldWrite_lat, fieldWrite_divq]
    refine ⟨fun h => absurd hpast (h ▸ lt_irrefl _), fun h => absurd h hxck, fun w hw => ?_⟩
    obtain rfl := eq_of_mem_fieldsWritten hw hmem
    have hholds := fieldHolds_of_fieldWritten hwritten hpowered hfits
    exact hholds

end SeqPhase

/-- Every phase of SEQ keeps Configured. -/
theorem exec_phase_configured {s : State} (hv : paramsValid s.cfg = true) (hs : s.Configured) :
    EveryNext (exec s.phase.instr s) State.Configured := by
  cases hp : s.phase with
  | idle => exact .next hs
  | resolve | validate | poll => exact fun t ht => configured_of_endsOrMoves (exec_endsOrMoves s (by simp [Phase.instr]) t ht)
  | guardAcq => exact .next (configured_of_not_past (by simp [State.Past, State.phaseNum]))
  | pwrClr => exact execPhasePwrClr_configured hs hp
  | xckDir => exact execPhaseXckDir_configured hs hp
  | dsWrite => exact fieldPhase_configured hs hv hp (by decide) nofun (nextVisited_dsWrite _) (fun _ => ⟨_, _⟩) fun _ => rfl
  | modeSel | divHi | divLo | frmSizeLo | frmSizeHi | frmParity | frmStop =>
    exact fieldPhase_configured hs hv hp (by decide) nofun (nextVisited_of_succ rfl) (fun _ => ⟨_, _⟩) fun _ => rfl
  | guardRel => exact .next (configured_of_idle rfl)

/-! ## The other agents -/

/-- `t` keeps the registers of unit `u`, its power-reduction register and its clock pin, `d` its record. -/
def UnitKept (s t : State) (u : Nat) (d : UnitDesc) : Prop :=
  t.regsOf u = s.regsOf u ∧ t.prOf d.prId = s.prOf d.prId ∧ t.dirOf d.xckPin = s.dirOf d.xckPin

theorem keeps_of_unitKept {s t : State} {d : UnitDesc} (hd : resolve s.cfg s.lat.unit.toNat = some d) (hcfg : t.cfg = s.cfg)
    (h : UnitKept s t s.lat.unit.toNat d) (p : Phase) : Keeps s t d p := by
  obtain ⟨hregs, hpr, hdir⟩ := h
  refine ⟨?_, fun _ => hdir, fun v _ => by rw [hregs]⟩
  simp [State.gated, hcfg, hd, hpr]

theorem unitKept_raise (s : State) (f : ModelFault) (u : Nat) (d : UnitDesc) : UnitKept s (s.raise f) u d :=
  ⟨raise_regsOf s f u, raise_prOf s f _, raise_dirOf s f _⟩

/-- A write of the command port writes LAT, SEQSTAT and PHASE only. -/
theorem runWord_cmd64_unitKept (w : CmdWord) (s : State) (u : Nat) (d : UnitDesc) :
    EveryNext (runWord (.cmd64 w) s) (fun t => UnitKept s t u d) := by
  have refuses : UnitKept s s.refuseWord u d := by
    unfold State.refuseWord
    split <;> exact ⟨rfl, rfl, rfl⟩
  simp only [runWord, decode, decodeCmd]
  split_ifs
  · exact .next refuses
  · exact .next refuses
  · simp only [exec, execInit]
    split
    · exact .next ⟨rfl, rfl, rfl⟩
    · split <;> exact .next ⟨rfl, rfl, rfl⟩

theorem execBusRd_unitKept (addr : BusAddr) (s : State) (u : Nat) (d : UnitDesc) :
    EveryNext (execBusRd addr s) (fun t => UnitKept s t u d) := by
  unfold execBusRd
  split
  · exact .next (unitKept_raise s _ u d)
  · next v r _ =>
    split
    · exact .next (unitKept_raise s _ u d)
    · obtain h | h := regRead_state s v r <;> rw [h] <;> exact .next ⟨rfl, rfl, rfl⟩

theorem hostWrite_regsOf_of_ne (s : State) {u w : Nat} (hw : w ≠ u) (d : UnitDesc) (r : Reg) (v : Byte) :
    (s.hostWrite u d r v).regsOf w = s.regsOf w := by
  by_cases hignored : s.gated u = true ∨ r = .data
  · rw [hostWrite_of_ignored d v hignored]
  · obtain ⟨hpowered, hdata⟩ := not_or.mp hignored
    rw [hostWrite_of_powered d v (Bool.eq_false_of_not_eq_true hpowered) hdata, advance_regsOf, setRegs_regsOf, if_neg hw]

section MainDuty

variable {s : State} (hmain : s.agent = .main) (hbusy : s.phase ≠ .idle)
include hmain hbusy

/-- Duty (a) of 60_exceptions.md R112: the bus write is of another unit, or a fault. -/
theorem execBusWr_unitKept (addr : BusAddr) (data : Byte) (d : UnitDesc) :
    EveryNext (execBusWr addr data s) (fun t => UnitKept s t s.lat.unit.toNat d) := by
  unfold execBusWr
  split
  · exact .next (unitKept_raise s _ _ d)
  · next u r _ =>
    split
    · exact .next (unitKept_raise s _ _ d)
    · next hduty =>
      have hother : s.lat.unit.toNat ≠ u := fun h => hduty ((breaksUnitDuty_iff s u).mpr ⟨hmain, hbusy, h.symm⟩)
      split
      · exact .next ⟨hostWrite_regsOf_of_ne s hother _ r data, hostWrite_prOf .., hostWrite_dirOf ..⟩
      · exact everyNext_fault _ _

variable {d : UnitDesc} (hd : resolve s.cfg s.lat.unit.toNat = some d)
include hd

/-- Duty (c): the register written is not the one that gates the unit, or a fault is raised. -/
theorem hostPrWrite_unitKept (id : Nat) (v : Byte) : UnitKept s (s.hostPrWrite id v) s.lat.unit.toNat d := by
  unfold State.hostPrWrite
  split
  · exact unitKept_raise s _ _ d
  · next hduty =>
    have hother : d.prId ≠ id := fun h => hduty ((breaksPrDuty_iff s id).mpr ⟨hmain, hbusy, d, hd, h⟩)
    split
    · refine ⟨?_, (prWrite_prOf s id _ v).trans (if_neg hother), rfl⟩
      rw [prWrite_regsOf, if_neg]
      rw [ungates_iff_of_resolve id v hd]
      exact fun ⟨h, _⟩ => hother h
    · exact ⟨rfl, rfl, rfl⟩

/-- Duty (d): the pin turned is not the unit's clock pin, or a fault is raised. -/
theorem hostDirWrite_unitKept (pin : Nat) (x : Dir) : UnitKept s (s.hostDirWrite pin x) s.lat.unit.toNat d := by
  unfold State.hostDirWrite
  split
  · exact unitKept_raise s _ _ d
  · next hduty =>
    have hother : d.xckPin ≠ pin := fun h => hduty ((breaksXckDuty_iff s pin).mpr ⟨hmain, hbusy, d, hd, h⟩)
    split
    · exact ⟨rfl, rfl, (setDirection_dirOf s pin _ x).trans (if_neg hother)⟩
    · exact ⟨rfl, rfl, rfl⟩

/-- While a command runs MAIN leaves its unit as it is (60_exceptions.md R112). -/
theorem hostAct_unitKept (act : HostAct) : EveryNext (hostAct act s) (fun t => UnitKept s t s.lat.unit.toNat d) := by
  cases act with
  | cmdWrite w => exact runWord_cmd64_unitKept w s _ d
  | cmdRead => exact .next ⟨rfl, rfl, rfl⟩
  | bus we addr data =>
    simp only [hostAct, runWord, decode, decodeBus]
    split_ifs
    · exact everyNext_refused _ _
    · exact execBusWr_unitKept hmain hbusy addr data d
    · exact execBusRd_unitKept addr s _ d
  | prWrite id v => exact .next (hostPrWrite_unitKept hmain hbusy hd id v)
  | dirWrite pin x => exact .next (hostDirWrite_unitKept hmain hbusy hd pin x)
  | ieWrite b =>
    refine .next ?_
    unfold State.hostIeWrite
    split
    · exact unitKept_raise s _ _ d
    · exact ⟨rfl, rfl, rfl⟩

end MainDuty

/-- A turn that leaves the sequencer's fields and keeps what is done keeps Configured. -/
theorem configured_of_sameSequencer {s t : State} (hs : s.Configured) (hsame : SameSequencer s t)
    (hkeeps : ∀ d, resolve s.cfg s.lat.unit.toNat = some d → ∀ p, Keeps s t d p) : t.Configured := by
  obtain ⟨hphase, hlat, hdivq, -, -, -, hcfg⟩ := hsame
  refine configured_of_keeps hs ⟨hlat, hdivq, hcfg⟩ fun d hd p hpast _ => .inl ⟨?_, hkeeps d hd p⟩
  rwa [State.Past, State.phaseNum, hphase] at hpast

/-- LINE writes TC and RIP, which no phase writes. -/
theorem lineStep_configured {s : State} (hv : paramsValid s.cfg = true) (hs : s.Configured) (u : Nat) (tc rip : Bool) :
    (lineStep u tc rip s).Configured := by
  refine configured_of_sameSequencer hs (sameSequencer_lineStep s u tc rip) fun d hd p => ?_
  cases he : resolve s.cfg u with
  | none =>
    simp only [lineStep, he]
    exact ⟨rfl, fun _ => rfl, fun _ _ => rfl⟩
  | some e =>
    simp only [lineStep, he]
    refine ⟨rfl, fun _ => rfl, fun v hmem => ?_⟩
    by_cases hu : s.lat.unit.toNat = u
    · subst hu
      obtain rfl : d = e := Option.some.inj (hd.symm.trans he)
      obtain ⟨htc, hrip⟩ := lineFlags_apart (unitValid_of_resolve hv hd) hmem
      exact lineWrite_fieldOf s _ d tc rip (fits_of_mem_fieldsWritten hmem) htc hrip
    · rw [lineWrite_regsOf, if_neg hu]

/-- Without the guard nothing is written yet; under it IE is 0, so a host step is MAIN's. -/
theorem hostAct_configured {s : State} (hs : s.SeqInv) (hc : s.Configured) {act : HostAct}
    (hen : s.hostEnabled s.agent act = true) : EveryNext (hostAct act s) State.Configured := by
  intro t ht
  have hagent := (hostEnabled_iff s s.agent act).mp hen
  have hmainIe : ∀ b, act = .ieWrite b → s.agent = .main := fun b hb => hagent.resolve_right fun ⟨_, hne⟩ => hne b hb
  obtain hsame | ⟨hidle, hmove⟩ := hostAct_sequencer act hmainIe t ht
  · have ⟨hphase, _, _, _, _, _, hcfg⟩ := hsame
    by_cases hg : s.Guarded
    · obtain ⟨-, -, -, -, -, -, hmasked⟩ := hs
      have hmain : s.agent = .main := hagent.resolve_right fun ⟨hie, _⟩ => by simp [hmasked hg] at hie
      have hbusy : s.phase ≠ .idle := fun hidle => not_guarded_of_idle hidle hg
      exact configured_of_sameSequencer hc hsame fun d hd p => keeps_of_unitKept hd hcfg (hostAct_unitKept hmain hbusy hd act t ht) p
    · refine configured_of_not_past fun hpast => hg ?_
      rw [State.Past, State.phaseNum, hphase] at hpast
      exact hpast.le
  · obtain ⟨l, -, rfl⟩ | ⟨b, rfl⟩ := hmove
    · exact configured_of_not_past (by simp [State.Past, State.phaseNum, Phase.code])
    · exact configured_of_idle hidle

/-- Settles O49, turn by turn: SEQ's phase, a host step taken or passed, LINE, and the reset input. -/
theorem stepKeepsConfiguredFields : Obligations.StepKeepsConfiguredFields := by
  intro s t hs hc h
  obtain ⟨hv, -⟩ := step_next h
  obtain ⟨-, he⟩ | ⟨rest, -, he⟩ | ⟨a, act, rest, -, hen, ha⟩ | ⟨a, act, rest, -, -, rfl⟩ | ⟨u, tc, rip, rest, -, rfl⟩ |
    ⟨rest, -, rfl⟩ := step_cases h
  · exact exec_phase_configured hv hc t he
  · exact exec_phase_configured (s := { s with sched := rest }) hv hc t he
  · exact hostAct_configured (s := { s with sched := rest, agent := a }) hs hc hen t ha
  · exact hc
  · exact lineStep_configured (s := { s with sched := rest }) hv hc u tc rip
  · exact configured_of_idle rfl

end Sys2Proof.Proofs
end

section
/-! PROOFS. GUARD_REL: the configuration that stands at the end of a command is the one the spec's tables ask for. -/

namespace Sys2Proof.Proofs

open Sys2Proof.Machine Sys2Proof.Laws Sys2Proof.Claims

/-! ## The divisor -/

/-- The range check passes the exact integer q - 1 (42_mode_clock.md R93, R94). -/
theorem divisorOfQuotient_eq_some_iff (q : Nat) (d : BitVec 12) : divisorOfQuotient q = some d ↔ q = d.toNat + 1 := by
  have hd := d.isLt
  unfold divisorOfQuotient
  split
  · next hrange => simp only [reduceCtorEq, false_iff]; omega
  · next hrange =>
    obtain ⟨n, rfl⟩ : ∃ n, q = n + 1 := ⟨q - 1, by omega⟩
    have hn : n < 4096 := by omega
    simp [← BitVec.toNat_inj]
    omega

theorem quotient_of_pos (fOsc : Nat) {m baud : Nat} (h : 0 < m * baud) : quotient fOsc m baud = fOsc / (m * baud) :=
  if_neg h.ne'

/-- The divisor is the exact quotient less one. -/
theorem divisor_eq_some_iff {fOsc m baud : Nat} (h : 0 < m * baud) (d : BitVec 12) :
    divisor fOsc m baud = some d ↔ fOsc / (m * baud) = d.toNat + 1 := by
  rw [divisor, quotient_of_pos fOsc h, divisorOfQuotient_eq_some_iff]

/-- The multiplier of 42_mode_clock.md R92 is the model's. -/
theorem mult_iff (mode : Mode) (m : Nat) : Mult mode m ↔ multiplier mode = some m := by
  cases mode <;> simp [Mult, multiplier, eq_comm]

theorem mult_pos {mode : Mode} {m : Nat} (h : Mult mode m) : 0 < m := by
  obtain ⟨-, rfl⟩ | ⟨-, rfl⟩ | ⟨-, rfl⟩ := h <;> decide

/-- DIVH and DIVL are the halves of DIVQ (42_mode_clock.md R99, R100). -/
theorem toNat_divisorHalves (q : BitVec 12) : (q.extractLsb' 8 4).toNat * 256 + (q.extractLsb' 0 8).toNat = q.toNat := by
  have := q.isLt
  simp only [BitVec.extractLsb'_toNat, Nat.shiftRight_eq_div_pow]
  omega

/-! ## The codes of the spec's tables -/

theorem modeCode_eq (m : Mode) : modeCode m = if m = .na ∨ m = .da then 0b00#2 else 0b01#2 := by cases m <;> rfl

theorem szlo_eq (z : Size) : szlo z = (sizeBits z).extractLsb' 0 2 := by cases z <;> rfl

theorem parCode_eq_parityBits (q : Parity) : parCode q = parityBits q := by cases q <;> rfl

theorem dsCode_getLsbD (m : Mode) : (dsCode m).getLsbD 0 = decide (m = .da) := by cases m <;> rfl

theorem szhi_getLsbD (z : Size) : (szhi z).getLsbD 0 = (sizeBits z).getLsbD 2 := by cases z <;> rfl

theorem stopCode_getLsbD (x : Stop) : (stopCode x).getLsbD 0 = decide (x = .two) := by cases x <;> rfl

/-- A one-bit field is its bit. -/
theorem getLsbD_of_fieldOf {x : Byte} {lo : Nat} {v : BitVec 1} (h : fieldOf x lo 1 = v) : x.getLsbD lo = v.getLsbD 0 := by
  simp [← h, fieldOf]

/-! ## GUARD_REL -/

/-- At GUARD_REL every phase's work stands, and it is the configuration the latched command asked for (40_command_port.md
R74 (b) to (d)). -/
theorem unitConfigured_of_guardRel {s : State} {d : UnitDesc} (hs : s.SeqInv) (hc : s.Configured) (hp : s.phase = .guardRel)
    (hd : resolve s.cfg s.lat.unit.toNat = some d) : UnitConfigured s s.lat.unit.toNat d s.lat := by
  have isOver : ∀ p, p.code.toNat < Phase.guardRel.code.toNat → s.Past p := fun p => (past_iff_of_phase hp).mpr
  obtain ⟨hpwr, hmode, hds, hxck, hdivhi, hdivlo, hszlo, hszhi, hpar, hstop⟩ := hc d hd
  obtain ⟨hbaud, -, hdivq⟩ := validated_of_past hs (isOver .validate (by decide))
  have hpowered := hpwr (isOver _ (by decide))
  have hpin := hxck (isOver _ (by decide))
  refine ⟨?_, ?_, ?_, fun hms => ?_, fun hss => ?_, fun m hm => ?_, ?_, ?_, ?_, ?_⟩
  · simpa [State.gated, hd] using hpowered
  · exact (hmode (isOver _ (by decide))).trans (modeCode_eq _)
  · exact (getLsbD_of_fieldOf (hds (isOver _ (by decide)))).trans (dsCode_getLsbD _)
  · exact hpin _ (by rw [hms]; rfl)
  · exact hpin _ (by rw [hss]; rfl)
  · have hpos : 0 < m * s.lat.baud.toNat := Nat.mul_pos (mult_pos hm) (Nat.pos_of_ne_zero fun h => hbaud (BitVec.eq_of_toNat_eq h))
    have hns : s.lat.mode ≠ .ss := fun h => by simp [Mult, h] at hm
    rw [hdivhi (isOver _ (by decide)) hns, hdivlo (isOver _ (by decide)) hns, toNat_divisorHalves]
    exact ((divisor_eq_some_iff hpos _).mp (hdivq m ((mult_iff _ _).mp hm))).symm
  · exact (hszlo (isOver _ (by decide))).trans (szlo_eq _)
  · exact (getLsbD_of_fieldOf (hszhi (isOver _ (by decide)))).trans (szhi_getLsbD _)
  · exact (hpar (isOver _ (by decide))).trans (parCode_eq_parityBits _)
  · exact (getLsbD_of_fieldOf (hstop (isOver _ (by decide)))).trans (stopCode_getLsbD _)

/-- Settles O51: finish and the restored IE leave the registers, PR, the pins and the parameters, so what stands at
GUARD_REL is delivered. -/
theorem guardReleaseDeliversConfiguration : Obligations.GuardReleaseDeliversConfiguration := by
  intro s d hs hc hp hd
  exact ⟨_, rfl, unitConfigured_of_guardRel hs hc hp hd, rfl, rfl, rfl, rfl⟩

end Sys2Proof.Proofs
end

section
/-! PROOFS. The command port: which command words are accepted, what INIT latches, and the SEQSTAT byte. -/

namespace Sys2Proof.Proofs

open Sys2Proof.Machine Sys2Proof.Laws Sys2Proof.Claims

/-! ## The operands of a command word (30_encoding.md R58, R59) -/

theorem sizeNum_of_sizeOfRaw {b : BitVec 4} {z : Size} : sizeOfRaw b = some z → sizeNum z = b.toNat := by
  revert b
  cases z <;> decide

theorem sizeOfRaw_eq_none_iff (b : BitVec 4) : sizeOfRaw b = none ↔ b.toNat < 5 ∨ 9 < b.toNat := by
  revert b
  decide

theorem parity_of_parityOfRaw {b : BitVec 2} {q : Parity} : parityOfRaw b = some q →
    (q = .none ↔ b = 0b00#2) ∧ (q = .even ↔ b = 0b01#2) ∧ (q = .odd ↔ b = 0b10#2) := by
  revert b
  cases q <;> decide

theorem parityOfRaw_eq_none_iff (b : BitVec 2) : parityOfRaw b = none ↔ b = 0b11#2 := by
  revert b
  decide

theorem modeOfBits_eq (b : BitVec 2) : Mode.ofBits b = modeOf b := by
  revert b
  decide

theorem stopOfBits_eq (b : BitVec 1) : Stop.ofBits b = stopOf b := by
  revert b
  decide

section Operands

variable {s : State} (unit : BitVec 4) (mode : Mode) (stop : Stop) (size : BitVec 4) (par : BitVec 2) (baud : BitVec 32)

/-- What a legal word latches is the operands of R58. -/
theorem operands_of_latchOf {l : Latch} (h : latchOf unit mode stop size par baud = some l) :
    Operands l unit mode stop size par baud := by
  unfold latchOf at h
  split at h
  · next z q hz hq =>
    split at h <;> cases h
    obtain ⟨hnone, heven, hodd⟩ := parity_of_parityOfRaw hq
    exact ⟨rfl, rfl, rfl, sizeNum_of_sizeOfRaw hz, hnone, heven, hodd, rfl⟩
  · cases h

/-- An illegal SIZE, PAR or BAUD is what R59 (c), (d) and (e) exclude. -/
theorem latchOf_eq_none_iff :
    latchOf unit mode stop size par baud = none ↔ size.toNat < 5 ∨ 9 < size.toNat ∨ par = 0b11#2 ∨ baud = 0#32 := by
  rw [← or_assoc, ← sizeOfRaw_eq_none_iff, ← parityOfRaw_eq_none_iff]
  unfold latchOf
  cases sizeOfRaw size with
  | none => simp
  | some z =>
    cases parityOfRaw par with
    | none => simp
    | some q => simp

/-- A legal word has operands to latch. -/
theorem exists_latchOf (hlo : 5 ≤ size.toNat) (hhi : size.toNat ≤ 9) (hpar : par ≠ 0b11#2) (hbaud : baud ≠ 0#32) :
    ∃ l, latchOf unit mode stop size par baud = some l ∧ Operands l unit mode stop size par baud := by
  have hsome : latchOf unit mode stop size par baud ≠ none := by
    rw [Ne, latchOf_eq_none_iff]
    simp [Nat.not_lt.mpr hlo, Nat.not_lt.mpr hhi, hpar, hbaud]
  obtain ⟨l, hl⟩ := Option.ne_none_iff_exists'.mp hsome
  exact ⟨l, hl, operands_of_latchOf unit mode stop size par baud hl⟩

/-! ## INIT -/

theorem execInit_of_busy (hbusy : s.phase ≠ .idle) : execInit unit mode stop size par baud s = .next (s.rejectWith .busy) :=
  if_pos hbusy

theorem execInit_of_illegal (hidle : s.phase = .idle) (h : latchOf unit mode stop size par baud = none) :
    execInit unit mode stop size par baud s = .next (s.rejectWith .illegalCommand) := by
  simp [execInit, hidle, h]

theorem execInit_of_legal (hidle : s.phase = .idle) {l : Latch} (h : latchOf unit mode stop size par baud = some l) :
    execInit unit mode stop size par baud s = .next (s.accept l) := by
  simp [execInit, hidle, h]

end Operands

/-- Settles O6: BUSY first, then the legality of SIZE, PAR and BAUD. -/
theorem initAcceptsOrRejects : Obligations.InitAcceptsOrRejects := by
  intro s unit mode stop size par baud
  refine ⟨execInit_of_busy unit mode stop size par baud, fun hidle hillegal => ?_, fun hidle hlo hhi hpar hbaud => ?_⟩
  · exact execInit_of_illegal unit mode stop size par baud hidle ((latchOf_eq_none_iff ..).mpr hillegal)
  · obtain ⟨l, hl, hops⟩ := exists_latchOf unit mode stop size par baud hlo hhi hpar hbaud
    exact ⟨_, execInit_of_legal unit mode stop size par baud hidle hl, rfl, hops⟩

/-! ## A write of the command port -/

section CommandWrite

variable {s : State} {w : CmdWord}

/-- R59 (a) and (b) of 30_encoding.md: the bits of an INIT that hold no operand. -/
def IsInitWord (w : CmdWord) : Prop := w.extractLsb' 28 4 = 1#4 ∧ w.extractLsb' 0 15 = 0#15

theorem runWord_of_initWord (hw : IsInitWord w) : runWord (.cmd64 w) s =
    execInit (w.extractLsb' 24 4) (modeOf (w.extractLsb' 22 2)) (stopOf (w.extractLsb' 21 1)) (w.extractLsb' 17 4)
      (w.extractLsb' 15 2) (w.extractLsb' 32 32) s := by
  obtain ⟨hop, hrsv⟩ := hw
  simp [runWord, decode, decodeCmd, hop, hrsv, exec, modeOfBits_eq, stopOfBits_eq]

/-- Any other word is refused by the decoder (30_encoding.md R60; log 21). -/
theorem runWord_of_not_initWord (hw : ¬ IsInitWord w) : runWord (.cmd64 w) s = .next s.refuseWord := by
  simp only [runWord, decode, decodeCmd]
  split_ifs with hop hrsv
  · rfl
  · rfl
  · exact absurd ⟨not_not.mp hop, not_not.mp hrsv⟩ hw

theorem runWord_of_busy (hbusy : s.phase ≠ .idle) : runWord (.cmd64 w) s = .next (s.rejectWith .busy) := by
  by_cases hw : IsInitWord w
  · rw [runWord_of_initWord hw, execInit_of_busy _ _ _ _ _ _ hbusy]
  · rw [runWord_of_not_initWord hw, State.refuseWord, if_pos hbusy]

theorem runWord_of_illegal (hidle : s.phase = .idle) (hw : ¬ LegalWord w) :
    runWord (.cmd64 w) s = .next (s.rejectWith .illegalCommand) := by
  by_cases hinit : IsInitWord w
  · rw [runWord_of_initWord hinit]
    refine execInit_of_illegal _ _ _ _ _ _ hidle ((latchOf_eq_none_iff ..).mpr ?_)
    by_contra hlegal
    simp only [not_or, Nat.not_lt] at hlegal
    obtain ⟨hop, hrsv⟩ := hinit
    exact hw ⟨hop, hrsv, hlegal⟩
  · rw [runWord_of_not_initWord hinit, State.refuseWord, if_neg (not_not.mpr hidle)]

theorem runWord_of_legal (hidle : s.phase = .idle) (hw : LegalWord w) : ∃ l,
    Operands l (w.extractLsb' 24 4) (modeOf (w.extractLsb' 22 2)) (stopOf (w.extractLsb' 21 1)) (w.extractLsb' 17 4)
      (w.extractLsb' 15 2) (w.extractLsb' 32 32) ∧ runWord (.cmd64 w) s = .next (s.accept l) := by
  obtain ⟨hop, hrsv, hlo, hhi, hpar, hbaud⟩ := hw
  obtain ⟨l, hl, hops⟩ := exists_latchOf (w.extractLsb' 24 4) (modeOf (w.extractLsb' 22 2)) (stopOf (w.extractLsb' 21 1)) _ _ _
    hlo hhi hpar hbaud
  exact ⟨l, hops, (runWord_of_initWord ⟨hop, hrsv⟩).trans (execInit_of_legal _ _ _ _ _ _ hidle hl)⟩

end CommandWrite

/-- Settles O5: the write is an enabled host step, so the word is run. -/
theorem commandWriteAcceptsOrRejects : Obligations.CommandWriteAcceptsOrRejects := by
  intro s a w rest hv ha hs
  have henabled : s.hostEnabled a (.cmdWrite w) = true :=
    (hostEnabled_iff s a _).mpr (ha.imp_right fun hie => ⟨hie, by simp⟩)
  rw [step_of_enabled_turn hv hs henabled, hostAct]
  refine ⟨fun hbusy => runWord_of_busy hbusy, fun hidle hw => runWord_of_illegal hidle hw, fun hidle hw => ?_⟩
  obtain ⟨l, hops, hrun⟩ := runWord_of_legal (s := { s with sched := rest, agent := a }) hidle hw
  exact ⟨_, hrun, rfl, hops⟩

/-! ## STAT -/

/-- Settles O7: each field of SEQSTAT stands at the bits the layout of 10_state.md R33 gives it. -/
theorem statReturnsSeqstat : Obligations.StatReturnsSeqstat := by
  intro s
  refine ⟨_, rfl, rfl, ?_, ?_, ?_, ?_, ?_⟩ <;> unfold State.seqstat
  · simp only [BitVec.getLsbD_append]
    simp [State.busy]
  · simp only [BitVec.getLsbD_append]
    simp
  · simp (disch := decide) only [BitVec.extractLsb'_append_eq_of_le, BitVec.extractLsb'_append_eq_of_add_le]
    cases s.result <;> rfl
  · simp (disch := decide) only [BitVec.extractLsb'_append_eq_of_le, BitVec.extractLsb'_append_eq_of_add_le]
    cases s.reject <;> rfl
  · simp only [BitVec.getLsbD_append]
    simp

end Sys2Proof.Proofs
end

section
/-! PROOFS. Whole commands: runs of SEQ alone, the way from PWR_CLR to GUARD_REL, and a legal INIT on a quiet powered unit. -/

namespace Sys2Proof.Proofs

open Sys2Proof.Machine Sys2Proof.Laws Sys2Proof.Claims

/-! ## Runs -/

/-- A run of n + 1 steps is a step and a run of n. -/
theorem run_succ_iff (n : Nat) (s t : State) :
    Host.Core.run core (n + 1) s = .next t ↔ ∃ r, step s = .next r ∧ Host.Core.run core n r = .next t := by
  have hstep : core.step s = step s := rfl
  simp only [Host.Core.run, hstep]
  cases step s <;> simp

theorem run_succ {n : Nat} {s r t : State} (h : step s = .next r) (hrun : Host.Core.run core n r = .next t) :
    Host.Core.run core (n + 1) s = .next t := (run_succ_iff n s t).mpr ⟨r, h, hrun⟩

theorem run_one {s t : State} (h : step s = .next t) : Host.Core.run core 1 s = .next t := run_succ h rfl

theorem run_trans {n m : Nat} {s r t : State} (hn : Host.Core.run core n s = .next r) (hm : Host.Core.run core m r = .next t) :
    Host.Core.run core (n + m) s = .next t := by
  induction n generalizing s with
  | zero =>
    obtain rfl : s = r := Host.Outcome.next.inj hn
    rwa [Nat.zero_add]
  | succ n ih =>
    obtain ⟨q, hq, hrun⟩ := (run_succ_iff n s r).mp hn
    rw [Nat.succ_add]
    exact run_succ hq (ih hrun)

/-- The invariants hold along a run. -/
theorem run_invariants {n : Nat} {s t : State} (hs : s.SeqInv) (hc : s.Configured) (h : Host.Core.run core n s = .next t) :
    t.SeqInv ∧ t.Configured := by
  induction n generalizing s with
  | zero =>
    obtain rfl : s = t := Host.Outcome.next.inj h
    exact ⟨hs, hc⟩
  | succ n ih =>
    obtain ⟨r, hr, hrun⟩ := (run_succ_iff n s t).mp h
    exact ih (stepKeepsSequencerInvariant s r hs hr) (stepKeepsConfiguredFields s r hs hc hr) hrun

/-! ## From PWR_CLR to GUARD_REL -/

/-- The phase after `p` for a command in mode `m`, under the guard (41_sequencer.md R81). -/
def phaseAfter (m : Mode) : Phase → Phase
  | .pwrClr => .modeSel
  | .modeSel => .dsWrite
  | .dsWrite => afterDsWrite m
  | .xckDir => if m = .ms then .divHi else .frmSizeLo
  | .divHi => .divLo
  | .divLo => .frmSizeLo
  | .frmSizeLo => .frmSizeHi
  | .frmSizeHi => .frmParity
  | .frmParity => .frmStop
  | .frmStop => .guardRel
  | p => p

/-- The steps left to GUARD_REL under the guard; GUARD_ACQ and GUARD_REL are the other two of `guardSteps`. -/
def stepsToRelease (m : Mode) : Phase → Nat
  | .pwrClr => guardSteps m - 2
  | .modeSel => guardSteps m - 3
  | .dsWrite => guardSteps m - 4
  | .xckDir => guardSteps m - 5
  | .divHi => 6
  | .divLo => 5
  | .frmSizeLo => 4
  | .frmSizeHi => 3
  | .frmParity => 2
  | .frmStop => 1
  | _ => 0

/-- `t` runs the same command as `s`, with the same turns left. -/
def SameCommand (s t : State) : Prop := t.lat = s.lat ∧ t.prior = s.prior ∧ t.cfg = s.cfg ∧ t.sched = s.sched

/-- The outcome is a next state at phase `q` of the same command. -/
def GoesTo (s : State) (q : Phase) (o : Host.Outcome State Fault Refusal) : Prop :=
  ∃ t, o = .next t ∧ SameCommand s t ∧ t.phase = q

section UnderGuard

variable {s : State} {d : UnitDesc} (hd : resolve s.cfg s.lat.unit.toNat = some d)
include hd

theorem goesTo_withUnit {k : Nat → UnitDesc → Host.Outcome State Fault Refusal} {q : Phase}
    (h : GoesTo s q (k s.lat.unit.toNat d)) : GoesTo s q (withUnit s k) := by
  rwa [withUnit_some hd]

theorem fieldPhase_goesTo (f : UnitDesc → RegField) (v : ∀ d, BitVec (f d).width) (q : Phase) :
    GoesTo s q (withUnit s fun u d => .next ((s.fieldWrite u (f d) (v d)).setPhase q)) :=
  goesTo_withUnit hd ⟨_, rfl, by simp [SameCommand], rfl⟩

theorem execPhasePwrClr_goesTo : GoesTo s .modeSel (execPhasePwrClr s) :=
  goesTo_withUnit hd ⟨_, rfl, ⟨rfl, rfl, rfl, rfl⟩, rfl⟩

theorem execPhaseXckDir_goesTo (hmode : s.lat.mode = .ms ∨ s.lat.mode = .ss) :
    GoesTo s (phaseAfter s.lat.mode .xckDir) (execPhaseXckDir s) := by
  refine goesTo_withUnit hd ?_
  obtain hm | hm := hmode <;> simp only [hm] <;> exact ⟨_, rfl, ⟨rfl, rfl, rfl, rfl⟩, rfl⟩

/-- Under the guard each phase goes to the next, whatever state the unit is in. -/
theorem exec_goesTo_phaseAfter (hg : s.Guarded) (hrel : s.phase ≠ .guardRel)
    (hxck : s.phase = .xckDir → s.lat.mode = .ms ∨ s.lat.mode = .ss) :
    GoesTo s (phaseAfter s.lat.mode s.phase) (exec s.phase.instr s) := by
  cases hp : s.phase with
  | guardRel => exact absurd hp hrel
  | idle | resolve | validate | poll | guardAcq => exact absurd hg (not_guarded_of_phase _ hp (by decide))
  | pwrClr => exact execPhasePwrClr_goesTo hd
  | xckDir => exact execPhaseXckDir_goesTo hd (hxck hp)
  | modeSel | dsWrite | divHi | divLo | frmSizeLo | frmSizeHi | frmParity | frmStop =>
    exact fieldPhase_goesTo hd _ _ _

end UnderGuard

/-- Each step under the guard is one step less to GUARD_REL. -/
theorem stepsToRelease_phaseAfter (m : Mode) {p : Phase} (hg : 5 ≤ p.code.toNat) (hrel : p ≠ .guardRel)
    (hxck : p = .xckDir → m = .ms ∨ m = .ss) :
    stepsToRelease m p = stepsToRelease m (phaseAfter m p) + 1 ∧ 5 ≤ (phaseAfter m p).code.toNat := by
  revert hg hrel hxck
  cases p <;> cases m <;> decide

/-- Once the guard is acquired SEQ alone reaches GUARD_REL with the same command (41_sequencer.md R91). -/
theorem run_to_guardRel {s : State} (hv : paramsValid s.cfg = true) (hsched : s.sched = []) (hs : s.SeqInv) (hg : s.Guarded) :
    ∃ t, Host.Core.run core (stepsToRelease s.lat.mode s.phase) s = .next t ∧ SameCommand s t ∧ t.phase = .guardRel := by
  induction hn : stepsToRelease s.lat.mode s.phase generalizing s with
  | zero =>
    have ⟨_, _, hxck, _⟩ := hs
    have hrel : s.phase = .guardRel := by
      by_contra hrel
      obtain ⟨hless, -⟩ := stepsToRelease_phaseAfter s.lat.mode hg hrel hxck
      omega
    exact ⟨s, rfl, ⟨rfl, rfl, rfl, rfl⟩, hrel⟩
  | succ n ih =>
    have ⟨_, _, hxck, _⟩ := hs
    obtain ⟨-, hunit, -⟩ := validated_of_past hs (past_validate_of_guarded hg)
    obtain ⟨d, hd⟩ := (resolve_isSome_iff _ _).mpr hunit
    have hrel : s.phase ≠ .guardRel := fun hp => by simp [hp, stepsToRelease] at hn
    obtain ⟨r, hr, ⟨hlat, hprior, hcfg, hsame⟩, hphase⟩ := exec_goesTo_phaseAfter hd hg hrel hxck
    have hstep : step s = .next r := (step_of_sched_nil hv hsched).trans hr
    obtain ⟨hless, hguard⟩ := stepsToRelease_phaseAfter s.lat.mode hg hrel hxck
    obtain ⟨t, hrun, ⟨hlat', hprior', hcfg', hsame'⟩, ht⟩ := ih (s := r) (hcfg ▸ hv) (hsame.trans hsched)
      (stepKeepsSequencerInvariant s r hs hstep) ((guarded_iff_of_phase hphase).mpr hguard) (by rw [hlat, hphase]; omega)
    exact ⟨t, run_succ hstep hrun, ⟨hlat'.trans hlat, hprior'.trans hprior, hcfg'.trans hcfg, hsame'.trans hsame⟩, ht⟩

/-! ## From acceptance to PWR_CLR -/

section Quiet

variable {s : State} {d : UnitDesc}

theorem execPhaseResolve_of_resolve (hd : resolve s.cfg s.lat.unit.toNat = some d) :
    execPhaseResolve s = .next (s.setPhase .validate) :=
  if_neg (Nat.not_le.mpr ((resolve_isSome_iff _ _).mp ⟨d, hd⟩))

/-- VALIDATE goes on in SS, and with a quotient in range (42_mode_clock.md R93). -/
theorem execPhaseValidate_of_representable (hbaud : s.lat.baud ≠ 0#32)
    (hdiv : ∀ m, Mult s.lat.mode m → 1 ≤ s.cfg.fOsc / (m * s.lat.baud.toNat) ∧ s.cfg.fOsc / (m * s.lat.baud.toNat) ≤ 4096) :
    ∃ q, execPhaseValidate s = .next { s with divq := q, pcnt := 0, phase := .poll } := by
  unfold execPhaseValidate
  split
  · exact ⟨s.divq, rfl⟩
  · next m hm =>
    have hmult := (mult_iff _ _).mpr hm
    have hpos : 0 < m * s.lat.baud.toNat :=
      Nat.mul_pos (mult_pos hmult) (Nat.pos_of_ne_zero fun h => hbaud (BitVec.eq_of_toNat_eq h))
    obtain ⟨hlo, hhi⟩ := hdiv m hmult
    have hq : divisor s.cfg.fOsc m s.lat.baud.toNat = some (BitVec.ofNat 12 (s.cfg.fOsc / (m * s.lat.baud.toNat) - 1)) := by
      rw [divisor_eq_some_iff hpos, BitVec.toNat_ofNat]
      omega
    rw [hq]
    exact ⟨_, rfl⟩

/-- The first read of a powered unit that shows quiescence ends POLL (41_sequencer.md R85, R86). -/
theorem execPhasePoll_of_quiescent (hd : resolve s.cfg s.lat.unit.toNat = some d) (hpowered : s.gated s.lat.unit.toNat = false)
    (htc : (s.regsOf s.lat.unit.toNat).status.getLsbD d.posTC.val = true)
    (hrip : (s.regsOf s.lat.unit.toNat).status.getLsbD d.posRIP.val = false) :
    execPhasePoll s = .next (s.setPhase .guardAcq) := by
  have hquiet : quiescent d ((s.regsOf s.lat.unit.toNat).get .status) = true := by
    simp only [quiescent, UnitRegs.get, htc, hrip, Bool.not_false, Bool.and_self]
  rw [execPhasePoll, withUnit_some hd, regRead_of_powered hpowered (by simp : Reg.status ≠ .data), if_pos hquiet]

variable (hd : resolve s.cfg s.lat.unit.toNat = some d) (hpowered : s.gated s.lat.unit.toNat = false)
  (htc : (s.regsOf s.lat.unit.toNat).status.getLsbD d.posTC.val = true)
  (hrip : (s.regsOf s.lat.unit.toNat).status.getLsbD d.posRIP.val = false)
  (hdiv : ∀ m, Mult s.lat.mode m → 1 ≤ s.cfg.fOsc / (m * s.lat.baud.toNat) ∧ s.cfg.fOsc / (m * s.lat.baud.toNat) ≤ 4096)
include hd hpowered htc hrip hdiv

/-- An accepted command for a quiet powered unit acquires the guard in four steps of SEQ, with IE in PRIOR. -/
theorem run_to_pwrClr (hv : paramsValid s.cfg = true) (hsched : s.sched = []) (hp : s.phase = .resolve)
    (hbaud : s.lat.baud ≠ 0#32) :
    ∃ t, Host.Core.run core 4 s = .next t ∧ t.phase = .pwrClr ∧ t.lat = s.lat ∧ t.prior = s.ie ∧ t.cfg = s.cfg ∧ t.sched = [] := by
  have seq : ∀ {r t : State}, r.cfg = s.cfg → r.sched = s.sched → exec r.phase.instr r = .next t → step r = .next t :=
    fun hcfg hr ht => (step_of_sched_nil (hcfg ▸ hv) (hr.trans hsched)).trans ht
  obtain ⟨q, hq⟩ := execPhaseValidate_of_representable (s := s.setPhase .validate) hbaud hdiv
  have hresolve : step s = .next (s.setPhase .validate) :=
    seq rfl rfl (by rw [hp]; exact execPhaseResolve_of_resolve hd)
  have hvalidate := seq (r := s.setPhase .validate) rfl rfl hq
  have hpoll := seq (r := { s with divq := q, pcnt := 0, phase := .poll }) rfl rfl
    (execPhasePoll_of_quiescent hd hpowered htc hrip)
  have hguard := seq (r := State.setPhase { s with divq := q, pcnt := 0, phase := .poll } .guardAcq) rfl rfl rfl
  exact ⟨_, run_succ hresolve (run_succ hvalidate (run_succ hpoll (run_one hguard))), rfl, rfl, rfl, rfl, hsched⟩

end Quiet

/-! ## A legal INIT on a quiet unit -/

theorem step_accepts_init {s : State} {unit : BitVec 4} {mode : Mode} {stop : Stop} {size : BitVec 4} {par : BitVec 2}
    {baud : BitVec 32} {l : Latch} (hv : paramsValid s.cfg = true) (hidle : s.phase = .idle)
    (hsched : s.sched = [.host .main (.cmdWrite (encodeInit unit mode stop size par baud))])
    (hl : latchOf unit mode stop size par baud = some l) :
    step s = .next (State.accept { s with sched := [], agent := .main } l) := by
  obtain ⟨-, -, hhost⟩ := stepRunsDecodedInstruction s (.init unit mode stop size par baud) [] .main hv
  obtain ⟨hcmd, -, -⟩ := hhost (.inl rfl)
  rw [hcmd _ hsched (decodeCmd_encodeInit unit mode stop size par baud)]
  exact execInit_of_legal (s := { s with sched := [], agent := .main }) unit mode stop size par baud hidle hl

/-- Acceptance, the four steps to PWR_CLR, those to GUARD_REL, and GUARD_REL. -/
theorem quietSteps_eq (m : Mode) : 4 + 1 + stepsToRelease m .pwrClr + 1 = 1 + (3 + guardSteps m) := by cases m <;> rfl

/-- Settles O58: one step accepts the command, four reach PWR_CLR, the phases under the guard reach GUARD_REL, and there
the invariants, which every step of the run kept, say that the unit is configured. -/
theorem initConfiguresQuietUnit : Obligations.InitConfiguresQuietUnit := by
  intro s unit mode stop size par baud d hv hidle hs hwf hsched hd hpowered htc hrip hdiv
  simp only [Instr.wf, Bool.and_eq_true, decide_eq_true_eq] at hwf
  obtain ⟨⟨⟨hlo, hhi⟩, hpar⟩, hbaud⟩ := hwf
  obtain ⟨l, hl, hops⟩ := exists_latchOf unit mode stop size par baud hlo hhi hpar hbaud
  have haccept := step_accepts_init hv hidle hsched hl
  have ⟨hunit, hmode, _, _, _, _, _, hlbaud⟩ := hops
  subst hunit hmode hlbaud
  obtain ⟨r, hrun, hrphase, hrlat, hrprior, hrcfg, hrsched⟩ :=
    run_to_pwrClr (s := State.accept { s with sched := [], agent := .main } l) hd hpowered htc hrip hdiv hv rfl rfl hbaud
  have hrunR := run_succ haccept hrun
  have hc : s.Configured := configured_of_idle hidle
  obtain ⟨hrs, -⟩ := run_invariants hs hc hrunR
  have hrv : paramsValid r.cfg = true := hrcfg ▸ hv
  obtain ⟨g, hrun', ⟨hglat, hgprior, hgcfg, hgsched⟩, hgphase⟩ :=
    run_to_guardRel hrv hrsched hrs ((guarded_iff_of_phase hrphase).mpr (by decide))
  have hrunG := run_trans hrunR hrun'
  obtain ⟨hgs, hgc⟩ := run_invariants hs hc hrunG
  replace hglat : g.lat = l := hglat.trans hrlat
  have hgd : resolve g.cfg g.lat.unit.toNat = some d := by rwa [hgcfg, hrcfg, hglat]
  obtain ⟨t, ht, hconf, hie, hidle', hdone, hresult⟩ := guardReleaseDeliversConfiguration g d hgs hgc hgphase hgd
  have hrel : step g = .next t := by
    rw [step_of_sched_nil (hgcfg ▸ hrv) (hgsched.trans hrsched), hgphase]
    exact ht
  have hrunT := run_trans hrunG (run_one hrel)
  rw [hrlat, hrphase] at hrunT
  rw [hglat] at hconf
  refine ⟨t, l, hops, ?_, hidle', hdone, hresult, hie.trans (hgprior.trans hrprior), hconf⟩
  rw [← quietSteps_eq]
  exact hrunT

end Sys2Proof.Proofs
end

section
/-! PROOFS. The sequencer's control phases: the divisor check of VALIDATE, the read of POLL, the power-up of PWR_CLR, the guard, and the next phases of every phase. -/

namespace Sys2Proof.Proofs

open Sys2Proof.Machine Sys2Proof.Laws Sys2Proof.Claims

/-! ## IDLE, GUARD_ACQ and GUARD_REL -/

/-- Settles O13: IDLE's meaning is the state itself. -/
theorem idleDoesNothing : Obligations.IdleDoesNothing := fun _ => rfl

/-- Settles O19: GUARD_ACQ is disable(), which puts IE into PRIOR, and the move to PWR_CLR. -/
theorem guardAcquireMasksInterrupts : Obligations.GuardAcquireMasksInterrupts := fun _ => rfl

/-- Settles O21: GUARD_REL is enable(PRIOR) and finish(OK). -/
theorem guardReleaseRestoresInterrupts : Obligations.GuardReleaseRestoresInterrupts := fun s =>
  ⟨_, rfl, finish_finished (s.enableInterrupts s.prior) .ok⟩

/-! ## VALIDATE -/

/-- ERR is a quotient of 0, or one past the twelve bits of DIVQ (42_mode_clock.md R93). -/
theorem divisorOfQuotient_eq_none_iff (q : Nat) : divisorOfQuotient q = none ↔ q = 0 ∨ 4096 < q := by
  unfold divisorOfQuotient
  split
  · next hrange => simp only [true_iff]; omega
  · next hrange => simp only [reduceCtorEq, false_iff]; omega

theorem divisor_eq_none_iff {fOsc m baud : Nat} (h : 0 < m * baud) :
    divisor fOsc m baud = none ↔ fOsc / (m * baud) = 0 ∨ 4096 < fOsc / (m * baud) := by
  rw [divisor, quotient_of_pos fOsc h, divisorOfQuotient_eq_none_iff]

section Validate

variable {s : State} {m : Nat}

/-- SS has no divisor to check. -/
theorem execPhaseValidate_of_ss (hss : s.lat.mode = .ss) : execPhaseValidate s = .next { s with pcnt := 0, phase := .poll } := by
  simp [execPhaseValidate, hss, multiplier]

theorem execPhaseValidate_of_err (hm : multiplier s.lat.mode = some m) (hdiv : divisor s.cfg.fOsc m s.lat.baud.toNat = none) :
    execPhaseValidate s = .next (s.finish .unsupportedDivisor) := by
  simp [execPhaseValidate, hm, hdiv]

theorem execPhaseValidate_of_divisor (hm : multiplier s.lat.mode = some m) {q : BitVec 12}
    (hdiv : divisor s.cfg.fOsc m s.lat.baud.toNat = some q) :
    execPhaseValidate s = .next { s with divq := q, pcnt := 0, phase := .poll } := by
  simp [execPhaseValidate, hm, hdiv]

end Validate

/-- Settles O15: outside SS the divisor is the exact quotient less one, or ERR. -/
theorem validateChecksDivisor : Obligations.ValidateChecksDivisor := by
  intro s
  refine ⟨execPhaseValidate_of_ss, fun m hm hbaud => ?_⟩
  have hpos : 0 < m * s.lat.baud.toNat :=
    Nat.mul_pos (mult_pos hm) (Nat.pos_of_ne_zero fun h => hbaud (BitVec.eq_of_toNat_eq h))
  have hmul := (mult_iff _ _).mp hm
  refine ⟨fun herr => ?_, fun hlo hhi => ?_⟩
  · have hnone := (divisor_eq_none_iff hpos).mpr herr
    exact ⟨_, execPhaseValidate_of_err hmul hnone, finish_finished s _⟩
  · have hsome : divisor s.cfg.fOsc m s.lat.baud.toNat ≠ none := fun hnone => by
      have := (divisor_eq_none_iff hpos).mp hnone
      omega
    obtain ⟨q, hq⟩ := Option.ne_none_iff_exists'.mp hsome
    exact ⟨_, execPhaseValidate_of_divisor hmul hq, rfl, ((divisor_eq_some_iff hpos q).mp hq).symm⟩

/-! ## POLL -/

theorem quiescent_iff (d : UnitDesc) (b : Byte) :
    quiescent d b = true ↔ b.getLsbD d.posTC.val = true ∧ b.getLsbD d.posRIP.val = false := by
  simp [quiescent]

theorem not_quiescent_iff (d : UnitDesc) (b : Byte) :
    ¬ quiescent d b = true ↔ b.getLsbD d.posTC.val = false ∨ b.getLsbD d.posRIP.val = true := by
  rw [quiescent_iff]
  simp [imp_iff_not_or]

section Poll

variable {s r : State} {d : UnitDesc} {b : Byte} (hd : resolve s.cfg s.lat.unit.toNat = some d)
  (hread : s.regRead s.lat.unit.toNat .status = (b, r))
include hd hread

/-- A STATUS that shows quiescence ends POLL (41_sequencer.md R85). -/
theorem execPhasePoll_of_read_quiescent (hquiet : quiescent d b = true) : execPhasePoll s = .next (r.setPhase .guardAcq) := by
  rw [execPhasePoll, withUnit_some hd, hread, if_pos hquiet]

variable (hbusy : ¬ quiescent d b = true)
include hbusy

theorem execPhasePoll_of_unbounded (hmax : s.cfg.maxPoll = .unbounded) : execPhasePoll s = .next (r.setPhase .poll) := by
  simp [execPhasePoll, withUnit_some hd, hread, hbusy, hmax]

/-- The n-th read is the last (41_sequencer.md R86). -/
theorem execPhasePoll_of_last_read (hmax : s.cfg.maxPoll = .bounded (s.pcnt + 1)) :
    execPhasePoll s = .next (r.finish .timeout) := by
  simp [execPhasePoll, withUnit_some hd, hread, hbusy, hmax]

theorem execPhasePoll_of_reads_left {n : Nat} (hmax : s.cfg.maxPoll = .bounded n) (hleft : s.pcnt + 1 ≠ n) :
    execPhasePoll s = .next { r with pcnt := s.pcnt + 1, phase := .poll } := by
  simp only [execPhasePoll, withUnit_some hd, hread, if_neg hbusy, hmax, if_neg hleft]

end Poll

/-- Settles O18: the byte read and the counter after it are those of RegRead; then the four outcomes of a read. -/
theorem pollReadsStatusOnce : Obligations.PollReadsStatusOnce := by
  intro s d b k hd hbyte
  have hread : s.regRead s.lat.unit.toNat .status = (b, { s with draws := k }) := by
    obtain ⟨hgated, rfl, rfl⟩ | ⟨hpowered, rfl, rfl⟩ := hbyte
    · exact regRead_of_free (.inl hgated)
    · exact regRead_of_powered hpowered nofun
  refine ⟨fun htc hrip => ?_, fun hunquiet => ?_⟩
  · exact execPhasePoll_of_read_quiescent hd hread ((quiescent_iff d b).mpr ⟨htc, hrip⟩)
  · have hbusy := (not_quiescent_iff d b).mpr hunquiet
    refine ⟨execPhasePoll_of_unbounded hd hread hbusy, fun n hmax => ⟨fun hlast => ?_, ?_⟩⟩
    · subst hlast
      exact ⟨_, execPhasePoll_of_last_read hd hread hbusy hmax, finish_finished { s with draws := k } .timeout⟩
    · exact execPhasePoll_of_reads_left hd hread hbusy hmax

/-! ## PWR_CLR -/

theorem allApart_iff_pairwise (ds : List UnitDesc) : allApart ds = true ↔ ds.Pairwise (fun d e => unitsApart d e = true) := by
  induction ds with
  | nil => simp [allApart]
  | cons d ds ih => simp [allApart, ih]

theorem pr_ne_of_apart {d e : UnitDesc} (h : unitsApart d e = true) : ¬(d.prId = e.prId ∧ d.prBit = e.prBit) := by
  simp only [unitsApart, Bool.and_eq_true, Bool.not_eq_true', Bool.and_eq_false_iff, beq_eq_false_iff_ne] at h
  tauto

/-- No two units of a valid table share a power-reduction bit (10_state.md R17 (f)). -/
theorem eq_of_same_pr {p : Params} {u w : Nat} {d e : UnitDesc} (hv : paramsValid p = true) (hd : resolve p u = some d)
    (he : resolve p w = some e) (hid : d.prId = e.prId) (hbit : d.prBit = e.prBit) : u = w := by
  obtain ⟨hu, rfl⟩ := List.getElem?_eq_some_iff.mp hd
  obtain ⟨hw, rfl⟩ := List.getElem?_eq_some_iff.mp he
  have happart := List.pairwise_iff_getElem.mp ((allApart_iff_pairwise _).mp (allApart_of_valid hv))
  obtain hlt | heq | hgt := Nat.lt_trichotomy u w
  · exact absurd ⟨hid, hbit⟩ (pr_ne_of_apart (happart u w hu hw hlt))
  · exact heq
  · exact absurd ⟨hid.symm, hbit.symm⟩ (pr_ne_of_apart (happart w u hw hu hgt))

theorem gated_of_resolve {s : State} {u : Nat} {d : UnitDesc} (hd : resolve s.cfg u = some d) :
    s.gated u = (s.prOf d.prId).getLsbD d.prBit.val := by
  simp [State.gated, hd]

section PowerClear

variable {s : State} {u : Nat} {d : UnitDesc} (hv : paramsValid s.cfg = true) (hd : resolve s.cfg u = some d)
include hv hd

/-- clear_bit of a unit's bit ungates that unit, if it is gated, and no other (10_state.md R17 (f)). -/
theorem ungates_clear_iff (w : Nat) :
    s.ungates d.prId (s.prOf d.prId &&& ~~~ (1#8 <<< d.prBit.val)) w = true ↔ w = u ∧ s.gated u = true := by
  rw [gated_of_resolve hd]
  constructor
  · intro h
    obtain ⟨e, he⟩ := (resolve_isSome_iff _ _).mpr (ungates_lt h)
    obtain ⟨hid, hset, hclear⟩ := (ungates_iff_of_resolve _ _ he).mp h
    have hbit : e.prBit = d.prBit := by
      by_contra hne
      rw [getLsbD_clear _ _ _ e.prBit.isLt, if_neg (Fin.val_ne_of_ne hne), hset] at hclear
      cases hclear
    exact ⟨eq_of_same_pr hv he hd hid hbit, hbit ▸ hset⟩
  · rintro ⟨rfl, hset⟩
    rw [ungates_iff_of_resolve _ _ hd, getLsbD_clear _ _ _ d.prBit.isLt]
    exact ⟨rfl, hset, if_pos rfl⟩

theorem clearBit_regsOf (w : Nat) : (s.clearBit d.prId d.prBit).regsOf w =
    if w = u ∧ s.gated u = true then UnitRegs.drawn (s.draws + 6 * w) else s.regsOf w := by
  rw [State.clearBit, prWrite_regsOf]
  exact if_congr (ungates_clear_iff hv hd w) rfl rfl

theorem clearBit_draws_of_powered (hpowered : s.gated u = false) : (s.clearBit d.prId d.prBit).draws = s.draws := by
  rw [State.clearBit, prWrite_draws, if_neg]
  rintro ⟨w, -, hw⟩
  obtain ⟨-, hgated⟩ := (ungates_clear_iff hv hd w).mp hw
  simp [hpowered] at hgated

end PowerClear

theorem execPhasePwrClr_of_resolve {s : State} {d : UnitDesc} (hd : resolve s.cfg s.lat.unit.toNat = some d) :
    execPhasePwrClr s = .next ((s.clearBit d.prId d.prBit).setPhase .modeSel) := withUnit_some hd _

/-- Settles O20: clear_bit of the unit's bit, which no other unit shares. -/
theorem powerClearUngatesUnit : Obligations.PowerClearUngatesUnit := by
  intro s d hv hd
  have hregs := clearBit_regsOf hv hd
  refine ⟨_, execPhasePwrClr_of_resolve hd, rfl, fun id hid => ?_, fun i hi => ?_,
    fun w hw => ?_, fun hgated => ⟨?_, ?_⟩, fun hpowered => ⟨?_, ?_⟩⟩
  · exact (prWrite_prOf s _ id _).trans (if_neg hid)
  · rw [← getLsbD_clear _ d.prBit i hi]
    exact congrArg (·.getLsbD i) ((prWrite_prOf s _ _ _).trans (if_pos rfl))
  · exact (hregs w).trans (if_neg fun ⟨h, _⟩ => hw h)
  · exact (hregs _).trans (if_pos ⟨rfl, hgated⟩)
  · exact le_prWrite_draws hv ((ungates_clear_iff hv hd _).mpr ⟨rfl, hgated⟩)
  · exact (hregs _).trans (if_neg (by simp [hpowered]))
  · exact clearBit_draws_of_powered hv hd hpowered

/-! ## The next phases -/

/-- The outcome of `s`, at phase `p`, goes to a phase R81 of 41_sequencer.md gives `p`. -/
def FollowsTable (s : State) (p : Phase) (o : Host.Outcome State Fault Refusal) : Prop :=
  EveryNext o fun t => t.phase ∈ nextPhases p s.lat.mode

section FollowsTable

variable (s : State)

theorem execPhaseResolve_followsTable : FollowsTable s .resolve (execPhaseResolve s) := by
  unfold execPhaseResolve
  split
  · exact .next (by simp [nextPhases])
  · exact .next (by simp [nextPhases])

theorem execPhaseValidate_followsTable : FollowsTable s .validate (execPhaseValidate s) := by
  unfold execPhaseValidate
  split
  · exact .next (by simp [nextPhases])
  · split <;> exact .next (by simp [nextPhases])

theorem execPhasePoll_followsTable : FollowsTable s .poll (execPhasePoll s) := by
  refine everyNext_withUnit fun u d => ?_
  split
  · exact .next (by simp [nextPhases])
  · split
    · exact .next (by simp [nextPhases])
    · split <;> exact .next (by simp [nextPhases])

theorem execPhasePwrClr_followsTable : FollowsTable s .pwrClr (execPhasePwrClr s) :=
  everyNext_withUnit fun _ _ => .next (by simp [nextPhases])

theorem execPhaseXckDir_followsTable (hmode : s.lat.mode = .ms ∨ s.lat.mode = .ss) :
    FollowsTable s .xckDir (execPhaseXckDir s) := by
  refine everyNext_withUnit fun u d => ?_
  obtain hm | hm := hmode <;> simp only [hm] <;> exact .next (by simp [nextPhases])

theorem afterDsWrite_mem_nextPhases (m : Mode) : afterDsWrite m ∈ nextPhases .dsWrite m := by cases m <;> decide

theorem fieldPhase_followsTable (f : UnitDesc → RegField) (v : ∀ d, BitVec (f d).width) {p q : Phase}
    (hq : q ∈ nextPhases p s.lat.mode) :
    FollowsTable s p (withUnit s fun u d => .next ((s.fieldWrite u (f d) (v d)).setPhase q)) :=
  everyNext_withUnit fun _ _ => .next hq

end FollowsTable

/-- Settles O23, phase by phase. -/
theorem phasesFollowTransitionTable : Obligations.PhasesFollowTransitionTable := by
  intro s t hxck
  suffices FollowsTable s s.phase (exec s.phase.instr s) from this t
  cases hp : s.phase with
  | idle => exact .next (by simp [hp, nextPhases])
  | resolve => exact execPhaseResolve_followsTable s
  | validate => exact execPhaseValidate_followsTable s
  | poll => exact execPhasePoll_followsTable s
  | guardAcq | guardRel => exact .next (by simp [nextPhases])
  | pwrClr => exact execPhasePwrClr_followsTable s
  | dsWrite => exact fieldPhase_followsTable s fieldDs _ (afterDsWrite_mem_nextPhases _)
  | xckDir => exact execPhaseXckDir_followsTable s (hxck hp)
  | modeSel | divHi | divLo | frmSizeLo | frmSizeHi | frmParity | frmStop =>
    exact fieldPhase_followsTable s _ _ (by simp [nextPhases])

end Sys2Proof.Proofs
end

section
/-! PROOFS. The sequencer across turns: who moves PHASE, the guard held from GUARD_ACQ to GUARD_REL, and POLL on a unit that never shows quiescence. -/

namespace Sys2Proof.Proofs

open Sys2Proof.Machine Sys2Proof.Laws Sys2Proof.Claims

/-! ## Who moves PHASE -/

theorem hostIeWrite_phase (s : State) (b : Bool) : (s.hostIeWrite b).phase = s.phase := by
  unfold State.hostIeWrite
  split <;> simp

/-- The one host step that moves PHASE is the acceptance of a command (40_command_port.md R72). -/
theorem hostAct_phase (act : HostAct) (s : State) : EveryNext (hostAct act s) fun t =>
    t.phase ≠ s.phase → s.phase = .idle ∧ t.phase = .resolve ∧ ∃ w, act = .cmdWrite w := by
  intro t ht hmoved
  have same : ¬ SameSequencer s t := fun ⟨hphase, _⟩ => hmoved hphase
  cases act with
  | cmdWrite w =>
    obtain ⟨hidle, ⟨l, -, rfl⟩ | ⟨b, rfl⟩⟩ := (runWord_cmd64_sequencer w s t ht).resolve_left same
    · exact ⟨hidle, rfl, w, rfl⟩
    · exact absurd rfl hmoved
  | bus we addr data => exact absurd (sameSequencer_runWord_bustx s we addr data t ht) same
  | cmdRead => cases ht; exact absurd rfl hmoved
  | prWrite id v => cases ht; exact absurd (sameSequencer_hostPrWrite s id v) same
  | dirWrite pin x => cases ht; exact absurd (sameSequencer_hostDirWrite s pin x) same
  | ieWrite b => cases ht; exact absurd (hostIeWrite_phase s b) hmoved

/-- Settles O54, turn by turn: a host turn moves PHASE by acceptance only, a turn that passes and LINE's never do. -/
theorem onlySeqMovesPhase : Obligations.OnlySeqMovesPhase := by
  intro s t h hmoved
  obtain ⟨hs, -⟩ | ⟨rest, hs, -⟩ | ⟨a, act, rest, hs, -, ha⟩ | ⟨a, act, rest, -, -, rfl⟩ | ⟨u, tc, rip, rest, -, rfl⟩ |
    ⟨rest, hs, -⟩ := step_cases h
  · exact .inl hs
  · exact .inr (.inl ⟨rest, hs⟩)
  · obtain ⟨hidle, hresolve, w, rfl⟩ := hostAct_phase act { s with sched := rest, agent := a } t ha hmoved
    exact .inr (.inr (.inr ⟨hidle, hresolve, a, w, rest, hs⟩))
  · exact absurd rfl hmoved
  · have ⟨hphase, _⟩ := sameSequencer_lineStep { s with sched := rest } u tc rip
    exact absurd hphase hmoved
  · exact .inr (.inr (.inl ⟨rest, hs⟩))

/-! ## The guard -/

/-- What a step under the guard does to it: it is held on with PRIOR standing, or released with IE put back. -/
def GuardKept (s t : State) : Prop :=
  (t.Guarded ∧ t.prior = s.prior) ∨ (t.phase = .idle ∧ t.ie = s.prior ∧ t.result = .ok)

theorem guardKept_of_sameSequencer {s t : State} (hg : s.Guarded) (h : SameSequencer s t) : GuardKept s t := by
  obtain ⟨hphase, -, -, hprior, -⟩ := h
  refine .inl ⟨?_, hprior⟩
  rwa [State.Guarded, State.phaseNum, hphase]

/-- GUARD_REL releases the guard, and every phase before it goes on to one that holds it. -/
theorem exec_phase_guardKept {s : State} (hs : s.SeqInv) (hg : s.Guarded) : EveryNext (exec s.phase.instr s) (GuardKept s) := by
  intro t ht
  have ⟨_, _, hxck, _⟩ := hs
  by_cases hrel : s.phase = .guardRel
  · rw [hrel] at ht
    cases ht
    exact .inr ⟨rfl, rfl, rfl⟩
  · obtain ⟨-, hunit, -⟩ := validated_of_past hs (past_validate_of_guarded hg)
    obtain ⟨d, hd⟩ := (resolve_isSome_iff _ _).mpr hunit
    obtain ⟨r, hr, ⟨-, hprior, -⟩, hphase⟩ := exec_goesTo_phaseAfter hd hg hrel hxck
    obtain rfl : r = t := Host.Outcome.next.inj (hr.symm.trans ht)
    obtain ⟨-, hguard⟩ := stepsToRelease_phaseAfter s.lat.mode hg hrel hxck
    exact .inl ⟨(guarded_iff_of_phase hphase).mpr hguard, hprior⟩

/-- A host step under the guard finds the machine busy, so it leaves the sequencer. -/
theorem hostAct_guardKept {s : State} (hg : s.Guarded) {act : HostAct} (hen : s.hostEnabled s.agent act = true) :
    EveryNext (hostAct act s) (GuardKept s) := by
  intro t ht
  have hmain : ∀ b, act = .ieWrite b → s.agent = .main := fun b hb =>
    ((hostEnabled_iff s s.agent act).mp hen).resolve_right fun ⟨_, hne⟩ => hne b hb
  obtain hsame | ⟨hidle, -⟩ := hostAct_sequencer act hmain t ht
  · exact guardKept_of_sameSequencer hg hsame
  · exact absurd hg (not_guarded_of_idle hidle)

theorem step_guardKept {s t : State} (hs : s.SeqInv) (hg : s.Guarded) (hreset : ∀ rest, s.sched ≠ .reset :: rest)
    (h : step s = .next t) : GuardKept s t := by
  obtain ⟨-, he⟩ | ⟨rest, -, he⟩ | ⟨a, act, rest, -, hen, ha⟩ | ⟨a, act, rest, -, -, rfl⟩ | ⟨u, tc, rip, rest, -, rfl⟩ |
    ⟨rest, hsched, -⟩ := step_cases h
  · exact exec_phase_guardKept hs hg t he
  · exact exec_phase_guardKept (s := { s with sched := rest }) hs hg t he
  · exact hostAct_guardKept (s := { s with sched := rest, agent := a }) hg hen t ha
  · exact .inl ⟨hg, rfl⟩
  · exact guardKept_of_sameSequencer (s := { s with sched := rest }) hg (sameSequencer_lineStep _ u tc rip)
  · exact absurd hsched (hreset rest)

/-- Settles O55: while the guard is held on, SeqInv, which the step keeps, says that IE is 0. -/
theorem guardIsBalanced : Obligations.GuardIsBalanced := by
  intro s t hs hg hreset h
  obtain ⟨hguard, hprior⟩ | ⟨hidle, hie, hresult⟩ := step_guardKept hs hg hreset h
  · obtain ⟨-, -, -, -, -, -, hmasked⟩ := stepKeepsSequencerInvariant s t hs h
    exact ⟨fun _ => ⟨hprior, hmasked hguard⟩, fun hidle => absurd hguard (not_guarded_of_idle hidle)⟩
  · exact ⟨fun hrunning => absurd hidle hrunning, fun _ => ⟨hie, hresult⟩⟩

/-! ## The guarded sequence -/

/-- XCK_DIR is entered in MS and SS only (41_sequencer.md R81). -/
theorem mode_of_phaseAfter_xckDir {m : Mode} {p : Phase} (h : phaseAfter m p = .xckDir) : m = .ms ∨ m = .ss := by
  revert h
  cases p <;> cases m <;> decide

/-- SEQ alone runs under the guard. Unlike SeqInv this says nothing of the divisor or the poll limit, which no phase
past GUARD_ACQ asks about. -/
structure GuardedAlone (s : State) : Prop where
  valid : paramsValid s.cfg = true
  alone : s.sched = []
  unit : s.lat.unit.toNat < s.cfg.nUnits
  guarded : s.Guarded
  xckMode : s.phase = .xckDir → s.lat.mode = .ms ∨ s.lat.mode = .ss

theorem SameCommand.trans {s r t : State} (h : SameCommand s r) (h' : SameCommand r t) : SameCommand s t := by
  obtain ⟨hlat, hprior, hcfg, hsched⟩ := h
  obtain ⟨hlat', hprior', hcfg', hsched'⟩ := h'
  exact ⟨hlat'.trans hlat, hprior'.trans hprior, hcfg'.trans hcfg, hsched'.trans hsched⟩

namespace GuardedAlone

variable {s : State} (h : GuardedAlone s)
include h

/-- Each step but the last goes to the next phase and leaves SEQ alone under the guard. -/
theorem step_to_phaseAfter (hrel : s.phase ≠ .guardRel) :
    ∃ r, step s = .next r ∧ SameCommand s r ∧ r.phase = phaseAfter s.lat.mode s.phase ∧ GuardedAlone r := by
  obtain ⟨d, hd⟩ := (resolve_isSome_iff _ _).mpr h.unit
  obtain ⟨r, hr, hsame, hphase⟩ := exec_goesTo_phaseAfter hd h.guarded hrel h.xckMode
  have ⟨hlat, _, hcfg, hsched⟩ := hsame
  obtain ⟨-, hguard⟩ := stepsToRelease_phaseAfter s.lat.mode h.guarded hrel h.xckMode
  refine ⟨r, (step_of_sched_nil h.valid h.alone).trans hr, hsame, hphase, hcfg ▸ h.valid, hsched.trans h.alone, ?_,
    (guarded_iff_of_phase hphase).mpr hguard, fun hp => ?_⟩
  · rw [hlat, hcfg]
    exact h.unit
  · rw [hlat]
    exact mode_of_phaseAfter_xckDir (hphase.symm.trans hp)

theorem run_to_guardRel :
    ∃ t, Host.Core.run core (stepsToRelease s.lat.mode s.phase) s = .next t ∧ SameCommand s t ∧ t.phase = .guardRel := by
  induction hn : stepsToRelease s.lat.mode s.phase generalizing s with
  | zero =>
    refine ⟨s, rfl, ⟨rfl, rfl, rfl, rfl⟩, ?_⟩
    by_contra hrel
    obtain ⟨hless, -⟩ := stepsToRelease_phaseAfter s.lat.mode h.guarded hrel h.xckMode
    omega
  | succ n ih =>
    have hrel : s.phase ≠ .guardRel := fun hp => by simp [hp, stepsToRelease] at hn
    obtain ⟨hless, -⟩ := stepsToRelease_phaseAfter s.lat.mode h.guarded hrel h.xckMode
    obtain ⟨r, hstep, hsame, hphase, hr⟩ := h.step_to_phaseAfter hrel
    have ⟨hlat, _⟩ := hsame
    obtain ⟨t, hrun, hsame', ht⟩ := ih hr (by rw [hlat, hphase]; omega)
    exact ⟨t, run_succ hstep hrun, hsame.trans hsame', ht⟩

end GuardedAlone

/-- GUARD_ACQ and GUARD_REL are the first and the last of the guarded steps. -/
theorem guardSteps_eq (m : Mode) : guardSteps m = stepsToRelease m .pwrClr + 1 + 1 := by cases m <;> rfl

/-- Settles O57: GUARD_ACQ puts IE into PRIOR, the phases under the guard keep PRIOR, and GUARD_REL puts it back. -/
theorem guardedSequenceCompletes : Obligations.GuardedSequenceCompletes := by
  intro s hv hsched hp hunit
  have hacquire : step s = .next (s.disableInterrupts.setPhase .pwrClr) := by
    rw [step_of_sched_nil hv hsched, hp]
    rfl
  have hguarded : (s.disableInterrupts.setPhase .pwrClr).Guarded :=
    (guarded_iff_of_phase (setPhase_phase _ .pwrClr)).mpr (by decide)
  have halone : GuardedAlone (s.disableInterrupts.setPhase .pwrClr) := ⟨hv, hsched, hunit, hguarded, nofun⟩
  obtain ⟨g, hrun, ⟨-, hprior, hcfg, hsame⟩, hphase⟩ := halone.run_to_guardRel
  have hrelease : step g = .next ((g.enableInterrupts g.prior).finish .ok) := by
    rw [step_of_sched_nil (hcfg ▸ hv) (hsame.trans hsched), hphase]
    rfl
  refine ⟨(g.enableInterrupts g.prior).finish .ok, ?_, rfl, rfl, rfl, hprior⟩
  rw [guardSteps_eq]
  exact run_succ hacquire (run_trans hrun (run_one hrelease))

/-! ## POLL on a unit that never shows quiescence -/

/-- SEQ alone is at POLL, and its powered unit, with record `d`, does not show quiescence (41_sequencer.md R85). -/
structure WaitsAtPoll (s : State) (d : UnitDesc) : Prop where
  valid : paramsValid s.cfg = true
  alone : s.sched = []
  phase : s.phase = .poll
  record : resolve s.cfg s.lat.unit.toNat = some d
  powered : s.gated s.lat.unit.toNat = false
  unquiet : ¬ quiescent d (s.regsOf s.lat.unit.toNat).status = true

namespace WaitsAtPoll

variable {s : State} {d : UnitDesc} (h : WaitsAtPoll s d)
include h

theorem step_eq : step s = execPhasePoll s := by
  rw [step_of_sched_nil h.valid h.alone, h.phase]
  rfl

theorem read_eq : s.regRead s.lat.unit.toNat .status = ((s.regsOf s.lat.unit.toNat).status, s) :=
  regRead_of_powered h.powered nofun

/-- With reads left the unit is waited for again, one read further on. -/
theorem step_of_reads_left {n : Nat} (hmax : s.cfg.maxPoll = .bounded n) (hleft : s.pcnt + 1 ≠ n) :
    step s = .next { s with pcnt := s.pcnt + 1 } ∧ WaitsAtPoll { s with pcnt := s.pcnt + 1 } d := by
  refine ⟨?_, h.valid, h.alone, h.phase, h.record, h.powered, h.unquiet⟩
  rw [h.step_eq, execPhasePoll_of_reads_left h.record h.read_eq h.unquiet hmax hleft, ← h.phase]

theorem step_of_last_read (hmax : s.cfg.maxPoll = .bounded (s.pcnt + 1)) : step s = .next (s.finish .timeout) := by
  rw [h.step_eq, execPhasePoll_of_last_read h.record h.read_eq h.unquiet hmax]

/-- Without a limit the read changes nothing (41_sequencer.md R87). -/
theorem step_of_unbounded (hmax : s.cfg.maxPoll = .unbounded) : step s = .next s := by
  rw [h.step_eq, execPhasePoll_of_unbounded h.record h.read_eq h.unquiet hmax, State.setPhase, ← h.phase]

/-- With k reads left after this one the command finishes TIMEOUT in k + 1 steps. -/
theorem run_to_timeout {k : Nat} (hmax : s.cfg.maxPoll = .bounded (s.pcnt + (k + 1))) :
    ∃ t, Host.Core.run core (k + 1) s = .next t ∧ Finished s t .timeout := by
  induction k generalizing s with
  | zero => exact ⟨_, run_one (h.step_of_last_read hmax), finish_finished s .timeout⟩
  | succ k ih =>
    obtain ⟨hstep, hwaits⟩ := h.step_of_reads_left hmax (by omega)
    have hreads : s.pcnt + (k + 1 + 1) = s.pcnt + 1 + (k + 1) := by omega
    obtain ⟨t, hrun, hfin⟩ := ih hwaits (hmax.trans (congrArg _ hreads))
    exact ⟨t, run_succ hstep hrun, hfin⟩

theorem run_of_unbounded (hmax : s.cfg.maxPoll = .unbounded) (k : Nat) : Host.Core.run core k s = .next s := by
  induction k with
  | zero => rfl
  | succ k ih => exact run_succ (h.step_of_unbounded hmax) ih

end WaitsAtPoll

/-- Settles O59: a valid limit is n = k + 1, and PCNT = 0 leaves k reads after the first. -/
theorem boundedPollTimesOut : Obligations.BoundedPollTimesOut := by
  intro s n d hv hsched hp hpcnt hmax hd hpowered hunquiet
  have hwaits : WaitsAtPoll s d := ⟨hv, hsched, hp, hd, hpowered, (not_quiescent_iff _ _).mpr hunquiet⟩
  obtain ⟨-, hrange⟩ := (pollInRange_iff s).mp (pollInRange_of_pcnt_zero hv hpcnt)
  obtain ⟨-, hlt⟩ := hrange n hmax
  obtain ⟨k, rfl⟩ := Nat.exists_eq_add_of_le' (Nat.one_le_of_lt (hlt hp))
  exact hwaits.run_to_timeout (by rw [hmax, hpcnt, Nat.zero_add])

/-- Settles O60: each step leaves the state as it is. -/
theorem unboundedPollBlocks : Obligations.UnboundedPollBlocks := by
  intro s k d hv hsched hp hmax hd hpowered hunquiet
  have hwaits : WaitsAtPoll s d := ⟨hv, hsched, hp, hd, hpowered, (not_quiescent_iff _ _).mpr hunquiet⟩
  exact hwaits.run_of_unbounded hmax k

end Sys2Proof.Proofs
end

section
/-! PROOFS. The Mode/Clock Configurator: the divisor as an exact floor, the fields its phases write, and the clock pin. -/

namespace Sys2Proof.Proofs

open Sys2Proof.Machine Sys2Proof.Laws Sys2Proof.Claims

/-! ## The divisor -/

/-- Settles O17: a quotient of d + 1 places F_OSC between two neighbouring multiples of m × baud. -/
theorem divisorIsExactFloor : Obligations.DivisorIsExactFloor := by
  intro fOsc m baud d h
  have hnext : (d.toNat + 2) * (m * baud) = (d.toNat + 1) * (m * baud) + m * baud := Nat.succ_mul _ _
  rw [divisor_eq_some_iff h, Nat.div_eq_iff h, hnext]
  omega

/-- Settles O16: ERR is a quotient below 1 or past 4096, and the ends of the range are cases of the exact floor. -/
theorem divisorClosedForm : Obligations.DivisorClosedForm := by
  intro fOsc m baud h
  refine ⟨?_, divisorIsExactFloor fOsc m baud 4095#12 h, ?_⟩
  · rw [divisor_eq_none_iff h, Nat.div_eq_zero_iff_lt h]
    exact or_congr_right (Nat.le_div_iff_mul_le h)
  · simpa using divisorIsExactFloor fOsc m baud 0#12 h

/-! ## The phases that write a field -/

theorem dsCode_eq (m : Mode) : dsCode m = if m = .da then 1#1 else 0#1 := by cases m <;> rfl

theorem afterDsWrite_eq (m : Mode) : afterDsWrite m = if m = .ms ∨ m = .ss then .xckDir else .divHi := by cases m <;> rfl

/-- A phase whose meaning is one FieldWrite writes that field and nothing else (20_memory.md R46). -/
theorem fieldPhase_written {s : State} {d : UnitDesc} (hd : resolve s.cfg s.lat.unit.toNat = some d) {p : Phase}
    {f : UnitDesc → RegField} {v : ∀ d, BitVec (f d).width} (hmem : (p, ⟨f d, v d⟩) ∈ fieldsWritten s.lat s.divq d) (q : Phase) :
    ∃ t, withUnit s (fun u d => .next ((s.fieldWrite u (f d) (v d)).setPhase q)) = .next t ∧
      FieldWritten s t s.lat.unit.toNat (f d) (v d) q := by
  obtain ⟨h8, h4⟩ := fits_of_mem_fieldsWritten hmem
  exact ⟨_, withUnit_some hd _, fieldWrite_setPhase_written s _ (f d) (v d) q h8 h4⟩

/-- Settles O25: MODE_SEL writes the mode code to CTRLA.MODE. -/
theorem modeSelWritesClockSource : Obligations.ModeSelWritesClockSource := by
  intro s d hd
  rw [← modeCode_eq]
  exact fieldPhase_written hd (f := fieldMode) (p := .modeSel) (by simp [fieldsWritten]) .dsWrite

/-- Settles O26: DS_WRITE writes the double-speed code to STATUS.DS. -/
theorem dsWriteSetsDoubleSpeed : Obligations.DsWriteSetsDoubleSpeed := by
  intro s d hd
  rw [← dsCode_eq, ← afterDsWrite_eq]
  exact fieldPhase_written hd (f := fieldDs) (p := .dsWrite) (by simp [fieldsWritten]) _

/-- Settles O29: DIV_HI writes the upper four bits of DIVQ to DIVH[3:0], DIV_LO the lower eight to DIVL. -/
theorem divisorHalvesWritten : Obligations.DivisorHalvesWritten := by
  intro s d hd
  exact ⟨fieldPhase_written hd (f := fun _ => fieldDivHi) (p := .divHi) (by simp [fieldsWritten]) .divLo,
    fieldPhase_written hd (f := fun _ => fieldDivLo) (p := .divLo) (by simp [fieldsWritten]) .frmSizeLo⟩

/-! ## XCK_DIR -/

section XckDir

variable {s : State} {d : UnitDesc} (hd : resolve s.cfg s.lat.unit.toNat = some d)
include hd

theorem execPhaseXckDir_of_ms (hms : s.lat.mode = .ms) :
    execPhaseXckDir s = .next ((s.setDirection d.xckPin .output).setPhase .divHi) := by
  simp [execPhaseXckDir, withUnit_some hd, hms]

theorem execPhaseXckDir_of_ss (hss : s.lat.mode = .ss) :
    execPhaseXckDir s = .next ((s.setDirection d.xckPin .input).setPhase .frmSizeLo) := by
  simp [execPhaseXckDir, withUnit_some hd, hss]

/-- 42_mode_clock.md R98 has no line for NA and DA (log 15). -/
theorem execPhaseXckDir_of_async (hasync : s.lat.mode = .na ∨ s.lat.mode = .da) : execPhaseXckDir s = .next s := by
  obtain hm | hm := hasync <;> simp [execPhaseXckDir, withUnit_some hd, hm]

end XckDir

/-- Settles O27: set_direction of the unit's clock pin, and no other pin. -/
theorem xckDirDrivesClockLine : Obligations.XckDirDrivesClockLine := by
  intro s d hd
  exact ⟨fun hms => ⟨_, execPhaseXckDir_of_ms hd hms, rfl, fun p => setDirection_dirOf s d.xckPin p .output⟩,
    fun hss => ⟨_, execPhaseXckDir_of_ss hd hss, rfl, fun p => setDirection_dirOf s d.xckPin p .input⟩⟩

/-- Settles O28: in NA and DA the phase neither writes the pin nor moves on. -/
theorem xckDirIdleInAsyncModes : Obligations.XckDirIdleInAsyncModes := fun _ _ hd hasync => execPhaseXckDir_of_async hd hasync

end Sys2Proof.Proofs
end

section
/-! PROOFS. The Frame Configurator: the encoder is the table of 43_frame.md R102, the fields its phases write, and that the order of two frame writes does not matter. -/

namespace Sys2Proof.Proofs

open Sys2Proof.Machine Sys2Proof.Laws Sys2Proof.Claims

/-! ## The frame encoder -/

/-- Every size, in the order of 43_frame.md R102. -/
def sizes : List Size := [.five, .six, .seven, .eight, .nine]

/-- Every parity, in the order of 43_frame.md R102. -/
def parities : List Parity := [.none, .even, .odd]

/-- Every number of stop bits, in the order of 43_frame.md R102. -/
def stops : List Stop := [.one, .two]

theorem mem_sizes (z : Size) : z ∈ sizes := by cases z <;> simp [sizes]

theorem mem_parities (q : Parity) : q ∈ parities := by cases q <;> simp [parities]

theorem mem_stops (st : Stop) : st ∈ stops := by cases st <;> simp [stops]

/-- The table lists the encoder on every frame format. -/
theorem frameTable_eq_map_frame :
    frameTable = (sizes ×ˢ parities ×ˢ stops).map fun (z, q, st) => (z, q, st, frame z q st) := rfl

theorem mem_frameTable_iff {z : Size} {q : Parity} {st : Stop} {code : BitVec 1 × BitVec 2 × BitVec 2 × BitVec 1} :
    (z, q, st, code) ∈ frameTable ↔ frame z q st = code := by
  simp [frameTable_eq_map_frame, mem_sizes, mem_parities, mem_stops]

/-- Settles O32: a row is in the table exactly when the encoder answers its codes. -/
theorem frameEncoderMatchesTable : Obligations.FrameEncoderMatchesTable :=
  ⟨fun _ hx => mem_frameTable_iff.mp hx, fun z q st => ⟨(z, q, st, frame z q st), mem_frameTable_iff.mpr rfl, rfl, rfl, rfl⟩⟩

/-! ## The fields the phases write -/

theorem szhi_eq (z : Size) : szhi z = if z = .nine then 1#1 else 0#1 := by cases z <;> rfl

theorem stopCode_eq (st : Stop) : stopCode st = if st = .two then 1#1 else 0#1 := by cases st <;> rfl

/-- Settles O30: the low two bits of the size code go to CTRLA.SZLO, the high bit to CTRLB.SZHI. -/
theorem frameSizeWritten : Obligations.FrameSizeWritten := by
  intro s d hd
  rw [← szlo_eq, ← szhi_eq]
  exact ⟨fieldPhase_written hd (f := fieldSzlo) (p := .frmSizeLo) (by simp [fieldsWritten]) .frmSizeHi,
    fieldPhase_written hd (f := fieldSzhi) (p := .frmSizeHi) (by simp [fieldsWritten]) .frmParity⟩

/-- Settles O31: the parity code goes to CTRLA.PAR, the stop code to CTRLA.STOP. -/
theorem frameParityAndStopWritten : Obligations.FrameParityAndStopWritten := by
  intro s d hd
  rw [← parCode_eq_parityBits, ← stopCode_eq]
  exact ⟨fieldPhase_written hd (f := fieldPar) (p := .frmParity) (by simp [fieldsWritten]) .frmStop,
    fieldPhase_written hd (f := fieldStop) (p := .frmStop) (by simp [fieldsWritten]) .guardRel⟩

/-! ## The order of two field writes -/

theorem fieldWrite_of_gated {s : State} {u : Nat} (hg : s.gated u = true) (f : RegField) (v : BitVec f.width) :
    s.fieldWrite u f v = s := if_pos hg

theorem fieldWrite_regsOf_of_ne (s : State) {u w : Nat} (hw : w ≠ u) {f : RegField} (hf : Fits f) (v : BitVec f.width) :
    (s.fieldWrite u f v).regsOf w = s.regsOf w := by
  obtain ⟨-, hother, -, -⟩ := fieldWrite_setPhase_written s u f v s.phase hf.1 hf.2
  exact hother w hw

/-- The bit `i` of the register `r` lies in the field. -/
abbrev Covers (f : RegField) (r : Reg) (i : Nat) : Prop := r = f.reg ∧ f.lo ≤ i ∧ i < f.lo + f.width

/-- Fields apart have no common bit. -/
theorem not_covers_of_apart {f g : RegField} (h : Apart f g) {r : Reg} {i : Nat} (hf : Covers f r i) : ¬ Covers g r i := by
  rintro ⟨hg, hglo, hghi⟩
  obtain ⟨hr, hflo, hfhi⟩ := hf
  have := h.resolve_left fun hne => hne (hr.symm.trans hg)
  omega

/-- Every bit of a powered unit's registers after a FieldWrite (20_memory.md R46). -/
theorem getLsbD_fieldWrite {s : State} {u : Nat} (hpowered : s.gated u = false) {f : RegField} (hf : Fits f) (v : BitVec f.width)
    (r : Reg) {i : Nat} (hi : i < 8) :
    (((s.fieldWrite u f v).regsOf u).get r).getLsbD i =
      if Covers f r i then v.getLsbD (i - f.lo) else ((s.regsOf u).get r).getLsbD i := by
  obtain ⟨-, -, -, hregs⟩ := fieldWrite_setPhase_written s u f v s.phase hf.1 hf.2
  obtain ⟨hother, hbits⟩ := hregs hpowered
  by_cases hr : r = f.reg
  · subst hr
    simpa [Covers] using hbits i hi
  · rw [if_neg fun hc => hr hc.1]
    exact congrArg (·.getLsbD i) (hother r hr)

/-- The six registers are all a unit has; of DIVH four bits are stored (10_state.md R18, R22). -/
theorem eq_of_get_eq {x y : UnitRegs} (h : ∀ r, x.get r = y.get r) : x = y := by
  have hdivh : x.divh = y.divh := by rw [← fieldOf_divh x, h, fieldOf_divh]
  cases x
  cases y
  rw [UnitRegs.mk.injEq]
  exact ⟨h .status, h .ctrla, h .ctrlb, h .divl, hdivh, h .data⟩

/-- Two writes of fields apart leave the same registers in either order: no bit is in both fields. -/
theorem fieldWrite_comm (s : State) (u : Nat) {f g : RegField} (hf : Fits f) (hg : Fits g) (hap : Apart f g)
    (a : BitVec f.width) (b : BitVec g.width) (w : Nat) :
    ((s.fieldWrite u f a).fieldWrite u g b).regsOf w = ((s.fieldWrite u g b).fieldWrite u f a).regsOf w := by
  by_cases hw : w = u
  · subst hw
    cases hgated : s.gated w with
    | true => simp [fieldWrite_of_gated, hgated]
    | false =>
      refine eq_of_get_eq fun r => BitVec.eq_of_getLsbD_eq fun i hi => ?_
      rw [getLsbD_fieldWrite (by simpa) hg _ r hi, getLsbD_fieldWrite hgated hf _ r hi, getLsbD_fieldWrite (by simpa) hf _ r hi,
        getLsbD_fieldWrite hgated hg _ r hi]
      by_cases hcover : Covers f r i
      · rw [if_neg (not_covers_of_apart hap hcover), if_pos hcover, if_pos hcover]
      · rw [if_neg hcover, if_neg hcover]
  · simp [fieldWrite_regsOf_of_ne, hw, hf, hg]

/-- Each field of the frame is written by a phase, whatever the command and DIVQ. -/
theorem exists_mem_fieldsWritten (l : Latch) (q : BitVec 12) {d : UnitDesc} {f : RegField} (hf : f ∈ frameFields d) :
    ∃ x ∈ fieldsWritten l q d, x.2.field = f := by
  have hlast : frameFields d = ((fieldsWritten l q d).drop 4).map (·.2.field) := rfl
  rw [hlast] at hf
  obtain ⟨x, hx, hxf⟩ := List.mem_map.mp hf
  exact ⟨x, List.mem_of_mem_drop hx, hxf⟩

/-- Settles O33: the fields of a valid record's frame share no bit (10_state.md R17 (d)). -/
theorem frameWritesCommute : Obligations.FrameWritesCommute := by
  intro s u addrW d f g a b hd hf hg hne w
  obtain ⟨x, hx, rfl⟩ := exists_mem_fieldsWritten s.lat s.divq hf
  obtain ⟨y, hy, rfl⟩ := exists_mem_fieldsWritten s.lat s.divq hg
  have hap := apart_of_mem_fieldsWritten hd hx hy fun h => hne (by rw [h])
  exact fieldWrite_comm s u (fits_of_mem_fieldsWritten hx) (fits_of_mem_fieldsWritten hy) hap a b w

end Sys2Proof.Proofs
end

section
/-! PROOFS. Exceptions: MAIN's duties while a command runs, the faults that breaking one records, and the refusal of an invalid parameter set. -/

namespace Sys2Proof.Proofs

open Sys2Proof.Machine Sys2Proof.Laws

/-! ## What breaking a duty does (60_exceptions.md R112) -/

theorem dutyBound_iff (s : State) : s.dutyBound = true ↔ s.agent = .main ∧ s.phase ≠ .idle := by
  simp [State.dutyBound, State.busy]

theorem hostIeWrite_of_idle {s : State} (hidle : s.phase = .idle) (b : Bool) : s.hostIeWrite b = s.enableInterrupts b :=
  if_neg fun h =>
    have ⟨_, hbusy⟩ := (dutyBound_iff s).mp h
    hbusy hidle

/-- Every turn of MAIN is taken (00_scope.md R11). -/
theorem step_of_main_turn {s : State} {act : HostAct} {rest : List Turn} (hv : paramsValid s.cfg = true)
    (hs : s.sched = .host .main act :: rest) : step s = hostAct act { s with sched := rest, agent := .main } :=
  step_of_enabled_turn hv hs rfl

section MainBusy

variable {s : State} (hmain : s.agent = .main) (hbusy : s.phase ≠ .idle)
include hmain hbusy

/-- Duty (b), which binds whatever LAT.unit is. -/
theorem hostIeWrite_of_busy (b : Bool) : s.hostIeWrite b = s.raise (.hostHazard .ieWrite) :=
  if_pos ((dutyBound_iff s).mpr ⟨hmain, hbusy⟩)

variable {d : UnitDesc} (hd : resolve s.cfg s.lat.unit.toNat = some d)
include hd

/-- Duty (c). -/
theorem hostPrWrite_of_busy (v : Byte) : s.hostPrWrite d.prId v = s.raise (.hostHazard .prWrite) :=
  if_pos ((breaksPrDuty_iff s d.prId).mpr ⟨hmain, hbusy, d, hd, rfl⟩)

/-- Duty (d). -/
theorem hostDirWrite_of_busy (x : Dir) : s.hostDirWrite d.xckPin x = s.raise (.hostHazard .xckWrite) :=
  if_pos ((breaksXckDuty_iff s d.xckPin).mpr ⟨hmain, hbusy, d, hd, rfl⟩)

variable (hv : paramsValid s.cfg = true) {addr : BusAddr} {r : Reg} (haddr : addr.toNat = addressOf d r)
include hv haddr

/-- Duty (a), for a read. -/
theorem exec_busRd_of_busy : exec (.busRd addr) s = .next (s.raise (.hostHazard .unitAccess)) := by
  have hduty := (breaksUnitDuty_iff s _).mpr ⟨hmain, hbusy, rfl⟩
  simp [exec, execBusRd, haddr, locate_addressOf hv hd r, hduty]

/-- Duty (a), for a write. -/
theorem exec_busWr_of_busy (v : Byte) : exec (.busWr addr v) s = .next (s.raise (.hostHazard .unitAccess)) := by
  have hduty := (breaksUnitDuty_iff s _).mpr ⟨hmain, hbusy, rfl⟩
  simp [exec, execBusWr, haddr, locate_addressOf hv hd r, hduty]

end MainBusy

/-- Settles O10: the address is that of a register of LAT.unit, so the access breaks duty (a). -/
theorem busyUnitAccessFaults : Obligations.BusyUnitAccessFaults := fun s _ v _ _ hv hd haddr hmain hbusy =>
  ⟨⟨_, exec_busRd_of_busy hmain hbusy hd hv haddr, raise_faultRaised s _⟩,
    ⟨_, exec_busWr_of_busy hmain hbusy hd hv haddr v, raise_faultRaised s _⟩⟩

/-- Settles O39: the turn is taken, and the write breaks duty (c) or duty (d). -/
theorem busyCollaboratorWritesFault : Obligations.BusyCollaboratorWritesFault := by
  intro s d rest hv hbusy hd
  refine ⟨fun v hs => ⟨_, ?_, raise_faultRaised _ _⟩, fun x hs => ⟨_, ?_, raise_faultRaised _ _⟩⟩
  · rw [step_of_main_turn hv hs, hostAct, hostPrWrite_of_busy (s := { s with sched := rest, agent := .main }) rfl hbusy hd]
  · rw [step_of_main_turn hv hs, hostAct, hostDirWrite_of_busy (s := { s with sched := rest, agent := .main }) rfl hbusy hd]

/-- Settles O38: the turn is taken, and the write breaks duty (b) unless the machine is idle. -/
theorem mainWritesInterruptEnable : Obligations.MainWritesInterruptEnable := by
  intro s b rest hv hs
  rw [step_of_main_turn hv hs, hostAct]
  refine ⟨fun hidle => ?_, fun hbusy => ⟨_, ?_, raise_faultRaised _ _⟩⟩
  · rw [hostIeWrite_of_idle (s := { s with sched := rest, agent := .main }) hidle]; rfl
  · rw [hostIeWrite_of_busy (s := { s with sched := rest, agent := .main }) rfl hbusy]

/-! ## MAIN while a command runs -/

/-- Settles O42: a host step of a busy machine leaves the sequencer's fields, and MAIN's duties keep the unit, its
power-reduction register and its clock pin from it. -/
theorem mainCannotDisturbCommand : Obligations.MainCannotDisturbCommand := by
  intro s t act rest d hs hbusy hd h
  obtain ⟨hv, -⟩ := step_next h
  rw [step_of_main_turn hv hs] at h
  obtain ⟨hregs, hpr, hdir⟩ := hostAct_unitKept (s := { s with sched := rest, agent := .main }) rfl hbusy hd act t h
  obtain ⟨hphase, hlat, -, -, -, hie, -⟩ | ⟨hidle, -⟩ := hostAct_sequencer act (fun _ _ => rfl) t h
  · exact ⟨hregs, hie, hpr, hdir, hphase, hlat⟩
  · exact absurd hidle hbusy

/-! ## Invalid parameter sets (60_exceptions.md R111) -/

theorem step_of_invalid {s : State} (h : paramsValid s.cfg = false) : step s = .refused .badConfiguration := by
  simp [step, h]

/-- The bounds a valid parameter set meets (00_scope.md R6, R7). -/
theorem bounds_of_valid {p : Params} (hv : paramsValid p = true) :
    1 ≤ p.nUnits ∧ 1 ≤ p.fOsc ∧ maxPollValid p.maxPoll = true := by
  simp only [paramsValid, Bool.and_eq_true, decide_eq_true_eq] at hv
  tauto

/-- No two units of a valid table share an address: the look-up answers one unit (20_memory.md R41). -/
theorem eq_of_same_address {p : Params} {u w : Nat} {d e : UnitDesc} {r q : Reg} (hv : paramsValid p = true)
    (hd : resolve p u = some d) (he : resolve p w = some e) (haddr : addressOf d r = addressOf e q) : u = w := by
  have hloc : some (u, r) = some (w, q) := by
    rw [← locate_addressOf hv hd r, haddr, locate_addressOf hv he q]
  cases hloc
  rfl

/-- Settles O46: a valid set has a unit, a clock and a poll bound of at least 1, and its units share no address. -/
theorem badConfigurationIsRefused : Obligations.BadConfigurationIsRefused := by
  refine ⟨fun s => step_of_invalid, fun p hbad => ?_, fun p d e u w r q hd he hne haddr => ?_⟩
  · refine Bool.eq_false_of_not_eq_true fun hv => ?_
    obtain ⟨hunits, hclock, hpoll⟩ := bounds_of_valid hv
    obtain htable | hzero | hbound := hbad
    · simp [Params.nUnits, htable] at hunits
    · omega
    · simp [maxPollValid, hbound] at hpoll
  · exact Bool.eq_false_of_not_eq_true fun hv => hne (eq_of_same_address hv hd he haddr)

end Sys2Proof.Proofs
end

section
/-! PROOFS. Reset and hazards: what the reset input leaves (70_reset_and_hazards.md R124), and that SEQ writes of a powered unit the fields of R132 only. -/

namespace Sys2Proof.Proofs

open Sys2Proof.Machine Sys2Proof.Laws

/-! ## The reset input -/

/-- The reset input is always taken (70_reset_and_hazards.md R124). -/
theorem step_of_reset_turn {s : State} {rest : List Turn} (hv : paramsValid s.cfg = true) (hs : s.sched = .reset :: rest) :
    step s = .next (State.resetInput { s with sched := rest }) := step_of_sched_cons hv hs

/-- Every unit register is a draw after the reset input, six free values a unit (10_state.md R38; log 25). -/
theorem resetInput_regsOf {s : State} {u : Nat} (hu : u < s.cfg.nUnits) :
    s.resetInput.regsOf u = UnitRegs.drawn (s.draws + 6 * u) := read_drawnUnits s.draws s.cfg.nUnits u hu

theorem resetInput_seqstat (s : State) : s.resetInput.seqstat = 0x00#8 :=
  have ⟨_, hseqstat, _⟩ := resetLeavesIdle s.cfg (Undetermined.drawn s.cfg s.draws)
  hseqstat

/-- The draws of the reset input are fresh: the counter passes all it takes (log 25). -/
theorem draws_lt_resetInput_draws (s : State) : s.draws < s.resetInput.draws := Nat.lt_add_of_pos_right (by decide)

/-- Settles O45: the turn is taken, and what it leaves is the reset state with fresh draws. -/
theorem resetInputAbandonsCommand : Obligations.ResetInputAbandonsCommand := fun _ _ hv hs =>
  ⟨_, step_of_reset_turn hv hs, rfl, resetInput_seqstat _, rfl, rfl, rfl, rfl, fun _ hu => resetInput_regsOf hu,
    draws_lt_resetInput_draws _⟩

/-! ## What a phase writes of the unit registers -/

/-- `t` has the unit registers of `s`, or those after one of the field writes of SEQ to the latched unit, `d` its record. -/
def WritesOneField (s t : State) (d : UnitDesc) : Prop :=
  (∀ w, t.regsOf w = s.regsOf w) ∨
  ∃ x ∈ fieldsWritten s.lat s.divq d, ∀ w, t.regsOf w = (s.fieldWrite s.lat.unit.toNat x.2.field x.2.value).regsOf w

/-- XCK_DIR writes no unit register: the clock pin, in MS and SS, and PHASE (42_mode_clock.md R98). -/
theorem execPhaseXckDir_regsOf (s : State) : EveryNext (execPhaseXckDir s) fun t => ∀ w, t.regsOf w = s.regsOf w := by
  refine everyNext_withUnit fun _ _ => ?_
  split <;> exact .next fun _ => rfl

section SeqWrites

variable {s : State} {d : UnitDesc} (hd : resolve s.cfg s.lat.unit.toNat = some d)
include hd

theorem fieldPhase_writesOneField (v : UnitDesc → FieldValue) {q : Phase}
    (hwrites : (fieldsWritten s.lat s.divq d).lookup s.phase = some (v d)) :
    EveryNext (withUnit s fun u d => .next ((s.fieldWrite u (v d).field (v d).value).setPhase q)) (WritesOneField s · d) := by
  rw [withUnit_some hd]
  exact .next (.inr ⟨_, mem_fieldsWritten_of_lookup hwrites, fun _ => rfl⟩)

variable (hv : paramsValid s.cfg = true) (hpowered : s.gated s.lat.unit.toNat = false)
include hv hpowered

/-- PWR_CLR ungates no unit: this one is powered, and no other has its bit (10_state.md R17 (f)). -/
theorem execPhasePwrClr_regsOf : EveryNext (execPhasePwrClr s) fun t => ∀ w, t.regsOf w = s.regsOf w := by
  rw [execPhasePwrClr_of_resolve hd]
  exact .next fun w => (clearBit_regsOf hv hd w).trans (if_neg (by simp [hpowered]))

/-- A phase writes at most one field of the latched unit (70_reset_and_hazards.md R132). -/
theorem exec_phase_writesOneField : EveryNext (exec s.phase.instr s) (WritesOneField s · d) := by
  cases hp : s.phase with
  | idle | guardAcq | guardRel => exact .next (.inl fun _ => rfl)
  | resolve | validate | poll =>
    intro t ht
    obtain ⟨k, c, rfl⟩ | ⟨_, _, _, _, -, -, rfl⟩ := exec_endsOrMoves s (by simp [Phase.instr]) t ht
    · exact .inl fun _ => rfl
    · exact .inl fun _ => rfl
  | pwrClr => exact fun t ht => .inl (execPhasePwrClr_regsOf hd hv hpowered t ht)
  | xckDir => exact fun t ht => .inl (execPhaseXckDir_regsOf s t ht)
  | modeSel | dsWrite | divHi | divLo | frmSizeLo | frmSizeHi | frmParity | frmStop =>
    exact fieldPhase_writesOneField hd (fun _ => ⟨_, _⟩) (by rw [hp]; rfl)

end SeqWrites

namespace WritesOneField

variable {s t : State} {d : UnitDesc} (h : WritesOneField s t d)
include h

theorem regsOf_of_ne {w : Nat} (hw : w ≠ s.lat.unit.toNat) : t.regsOf w = s.regsOf w := by
  obtain hsame | ⟨x, hx, hregs⟩ := h
  · exact hsame w
  · exact (hregs w).trans (fieldWrite_regsOf_of_ne s hw (fits_of_mem_fieldsWritten hx) x.2.value)

/-- A bit that no field of SEQ covers keeps its value (20_memory.md R46). -/
theorem getLsbD_of_not_covers (hpowered : s.gated s.lat.unit.toNat = false) {r : Reg} {i : Nat} (hi : i < 8)
    (hout : ∀ x ∈ fieldsWritten s.lat s.divq d, ¬ Covers x.2.field r i) :
    ((t.regsOf s.lat.unit.toNat).get r).getLsbD i = ((s.regsOf s.lat.unit.toNat).get r).getLsbD i := by
  obtain hsame | ⟨x, hx, hregs⟩ := h
  · rw [hsame]
  · rw [hregs, getLsbD_fieldWrite hpowered (fits_of_mem_fieldsWritten hx) _ r hi, if_neg (hout x hx)]

end WritesOneField

/-! ## The bits SEQ's fields cover -/

/-- Of STATUS SEQ names DS, of CTRLB SZHI, of CTRLA every field but POL, the last of its list, and of DATA nothing
(10_state.md R19 to R21). -/
theorem bit_of_covers {l : Latch} {q : BitVec 12} {d : UnitDesc} {x : Phase × FieldValue} (hx : x ∈ fieldsWritten l q d)
    {r : Reg} {i : Nat} (h : Covers x.2.field r i) :
    (r = .status ∧ i = d.posDS.val) ∨ (r = .ctrlb ∧ i = d.posSZHI.val) ∨ (r = .ctrla ∧ i ∈ (ctrlaBits d).dropLast) ∨
      r = .divh ∨ r = .divl := by
  obtain ⟨rfl, hlo, hhi⟩ := h
  simp only [fieldsWritten, List.mem_cons, List.not_mem_nil, or_false] at hx
  obtain rfl | rfl | rfl | rfl | rfl | rfl | rfl | rfl := hx <;> simp [ctrlaBits] at hlo hhi ⊢ <;> omega

/-- POL shares no bit with the other fields of CTRLA (10_state.md R17 (d)). -/
theorem pol_not_mem_dropLast {addrW : Nat} {d : UnitDesc} (hd : unitValid addrW d = true) :
    d.posPOL.val ∉ (ctrlaBits d).dropLast := by
  have hnodup : (ctrlaBits d).Nodup := by
    simp only [unitValid, Bool.and_eq_true, decide_eq_true_eq] at hd
    tauto
  have hsplit : ctrlaBits d = (ctrlaBits d).dropLast ++ [d.posPOL.val] := rfl
  rw [hsplit] at hnodup
  exact fun hmem => List.disjoint_of_nodup_append hnodup hmem (List.mem_singleton_self _)

/-- Settles O56: the phase writes at most one of SEQ's fields, and none of them covers the bits named. -/
theorem seqWritesOnlyItsFields : Obligations.SeqWritesOnlyItsFields := by
  intro s t d i hv hd hpowered ht hi
  have hwrites : WritesOneField s t d := exec_phase_writesOneField hd hv hpowered t ht
  have hpol := pol_not_mem_dropLast (unitValid_of_resolve hv hd)
  refine ⟨BitVec.eq_of_getLsbD_eq fun j hj => ?_, fun hds => ?_, fun hszhi => ?_, ?_, fun _ hw => hwrites.regsOf_of_ne hw⟩
  · exact hwrites.getLsbD_of_not_covers hpowered (r := .data) hj fun x hx hc => by simpa using bit_of_covers hx hc
  · exact hwrites.getLsbD_of_not_covers hpowered (r := .status) hi fun x hx hc => by simpa [hds] using bit_of_covers hx hc
  · exact hwrites.getLsbD_of_not_covers hpowered (r := .ctrlb) hi fun x hx hc => by simpa [hszhi] using bit_of_covers hx hc
  · exact hwrites.getLsbD_of_not_covers hpowered (r := .ctrla) d.posPOL.isLt fun x hx hc => by
      simpa [hpol] using bit_of_covers hx hc

end Sys2Proof.Proofs
end

section
/-! PROOFS. The sample words: an accepted one is the encoding of the INIT it stands for, a refused one breaks R59 (b) or R60. -/

namespace Sys2Proof.Proofs

/-- A word whose OP is not 0001 is no command (30_encoding.md R60). -/
theorem decodeCmd_of_op_ne {w : CmdWord} (hop : w.extractLsb' 28 4 ≠ 1#4) :
    decodeCmd w = .error (.noSuchCommand (w.extractLsb' 28 4)) :=
  if_pos hop

/-- The reserved bits of a command have to be 0 (30_encoding.md R59 (b)). -/
theorem decodeCmd_of_rsv_ne {w : CmdWord} (hop : w.extractLsb' 28 4 = 1#4) (hrsv : w.extractLsb' 0 15 ≠ 0#15) :
    decodeCmd w = .error .reservedNonZero := by
  rw [decodeCmd, if_neg (not_not.mpr hop), if_pos hrsv]

/-- Settles O3: the words of E01, E03, E05 and E04 are those the encoder writes for their INITs, which decode back; E14
fails on OP and E15 on RSV; the addresses of B01 and B05 fit in 16 bits. -/
theorem sampleWordsDecode : Obligations.SampleWordsDecode := by
  refine ⟨?e01, ?e03, ?e05, ?e04, ?e14, ?e15, rfl, ?b01, ?b05⟩
  case e01 => exact decodeCmd_encodeInit 0#4 .na .one 8#4 0b00#2 9600#32
  case e03 => exact decodeCmd_encodeInit 0#4 .ms .two 7#4 0b01#2 9600#32
  case e05 => exact decodeCmd_encodeInit 3#4 .na .one 9#4 0b10#2 115200#32
  case e04 => exact decodeCmd_encodeInit 1#4 .ss .one 8#4 0b00#2 9600#32
  case e14 => exact decodeCmd_of_op_ne (by decide)
  case e15 => exact decodeCmd_of_rsv_ne (by decide) (by decide)
  case b01 => exact decodeBus_of_lt (by decide) true 0xF3#8
  case b05 => exact decodeBus_of_lt (by decide) false 0x99#8

end Sys2Proof.Proofs
end
